-- ==== Sys2Proof/Word.lean ====
section
/-! DEFINITION. Word.lean: the word types of the block and nothing else. All values are unsigned and bit 0 is the least
significant bit of every value (00_scope.md R8). -/

namespace Sys2Proof

/-- A command word or a response word, 32 bits (30_encoding.md R70, R76). -/
abbrev Word := BitVec 32

/-- A colour word `R || G || B`: red in bits 23..16, green in 15..8, blue in 7..0 (20_memory.md R53 (b)); also the 24-bit
operand field and the 24-bit data and info words (30_encoding.md R70, R76). -/
abbrev ColourWord := BitVec 24

/-- A byte: a hardware byte of the palette or a byte of the packed image (10_state.md R26, R29). -/
abbrev Byte := BitVec 8

/-- A palette index as the index buffer holds it, 4 bits (10_state.md R28); also the operand of format X. -/
abbrev Nibble := BitVec 4

end Sys2Proof
end

