-- ==== Sys2Proof/Syntax.lean ====
section
/-! DEFINITION. Syntax.lean: the commands of the block, one constructor per row of the command table
(30_encoding.md R73). Operands are the unsigned bit fields of the operand field (R71, R72). -/

namespace Sys2Proof

/-- The 19 commands (30_encoding.md R73), in the table's order. -/
inductive Instr where
  /-- NOP (R90). -/
  | nop
  /-- SETMODE m, `m = A[1:0]` (R91). -/
  | setmode (m : BitVec 2)
  /-- SETDIM w, h, `w = A[7:0]`, `h = A[15:8]` (R92). -/
  | setdim (w h : BitVec 8)
  /-- SETPTR p, `p = A[9:0]` (R93). -/
  | setptr (p : BitVec 10)
  /-- CLRPAL (R94). -/
  | clrpal
  /-- WRPIX c, the colour word `c = A[23:0]` (R95). -/
  | wrpix (c : ColourWord)
  /-- PUSHPAL b, the hardware byte `b = A[7:0]` (R96). -/
  | pushpal (b : Byte)
  /-- WRIDX v, the palette index `v = A[3:0]` (R97). -/
  | wridx (v : Nibble)
  /-- RDPIX (R98). -/
  | rdpix
  /-- RDPAL i, `i = A[3:0]` (R99). -/
  | rdpal (i : Nibble)
  /-- RDIDX (R100). -/
  | rdidx
  /-- RDOUT (R101). -/
  | rdout
  /-- RDREG r, the register number `r = A[3:0]` (R102). -/
  | rdreg (r : Nibble)
  /-- BUILDPAL (41_palette_builder.md R124). -/
  | buildpal
  /-- QUANT (42_quantizer.md R138). -/
  | quant
  /-- QUANT1 c, the colour word `c = A[23:0]` (42_quantizer.md R139). -/
  | quant1 (c : ColourWord)
  /-- PACK (43_bit_packer.md R155). -/
  | pack
  /-- CONVERT (44_convert.md R170). -/
  | convert
  /-- CLRERR, the trap return (R103). -/
  | clrerr
deriving DecidableEq, Repr

end Sys2Proof
end

