-- ==== Sys2Proof/WellFormed.lean ====
section
/-! DEFINITION. WellFormed.lean: which terms of `Instr` carry operand values the commands declare legal.

Every term of `Instr` can be encoded, since the types of the operands carry the widths of the fields (30_encoding.md R71). What
remains to check are the operand ranges that depend on the operand alone. "A defined command whose operand value is outside
its legal range ... is not illegal in this sense: it decodes as that command, and the command's own rule raises" (R74), so an
ill-formed term has an encoding and a meaning too (its trap), and no statement of this package leaves it out. -/

namespace Sys2Proof

/-- The operand values that the command's rule declares legal whatever the state: SETMODE of 0, 1 or 2 (R91), SETDIM with both
sides in 1..24 (R92), RDREG of register 0..6 (R102). The other range checks read the state (PUSHPAL, RDPAL, the pointer). -/
def Instr.wellFormed : Instr → Bool
  | .nop => true
  | .setmode m => m != 3
  | .setdim w h => decide (1 ≤ w.toNat) && decide (w.toNat ≤ 24) && decide (1 ≤ h.toNat) && decide (h.toNat ≤ 24)
  | .setptr _ => true
  | .clrpal => true
  | .wrpix _ => true
  | .pushpal _ => true
  | .wridx _ => true
  | .rdpix => true
  | .rdpal _ => true
  | .rdidx => true
  | .rdout => true
  | .rdreg r => decide (r.toNat ≤ 6)
  | .buildpal => true
  | .quant => true
  | .quant1 _ => true
  | .pack => true
  | .convert => true
  | .clrerr => true

end Sys2Proof
end

