-- ==== Sys2Proof/Decode.lean ====
section
/-! DEFINITION. Decode.lean: the decoder (30_encoding.md R73, R74, R78), total on all 2^32 words and rejecting by name, and
after it the encoder. Every command is one 32-bit word; no mode changes how a word is decoded (R75). -/

namespace Sys2Proof

/-- Why a word is no command (30_encoding.md R74): both reasons make it an illegal word. -/
inductive DecodeError where
  /-- No row of the table has this opcode. -/
  | undefinedOpcode (op : Byte)
  /-- The opcode is defined, and a reserved bit of its format is set. -/
  | reservedBitSet (op : Byte)
deriving DecidableEq, Repr

/-- The opcode field `OP = cmd[31:24]` (30_encoding.md R70). -/
def opcodeOf (cmd : Word) : Byte := cmd.extractLsb' 24 8

/-- The operand field `A = cmd[23:0]` (30_encoding.md R70). -/
def operandOf (cmd : Word) : BitVec 24 := cmd.extractLsb' 0 24

/-- One row of the command table: a word is the row's command exactly when `cmd & mask = pattern` (30_encoding.md R73).
`build` extracts the operands (R72). -/
structure Row where
  /-- The column `match`. -/
  pattern : Word
  /-- The column `mask`. -/
  mask : Word
  /-- The command that a matching word encodes. -/
  build : Word → Instr

/-- The command table (30_encoding.md R73), row by row. -/
def commandTable : List Row := [
  { pattern := 0x00000000, mask := 0xFFFFFFFF, build := fun _ => .nop },
  { pattern := 0x01000000, mask := 0xFFFFFFFC, build := fun w => .setmode (w.extractLsb' 0 2) },
  { pattern := 0x02000000, mask := 0xFFFF0000, build := fun w => .setdim (w.extractLsb' 0 8) (w.extractLsb' 8 8) },
  { pattern := 0x03000000, mask := 0xFFFFFC00, build := fun w => .setptr (w.extractLsb' 0 10) },
  { pattern := 0x04000000, mask := 0xFFFFFFFF, build := fun _ => .clrpal },
  { pattern := 0x10000000, mask := 0xFF000000, build := fun w => .wrpix (w.extractLsb' 0 24) },
  { pattern := 0x11000000, mask := 0xFFFFFF00, build := fun w => .pushpal (w.extractLsb' 0 8) },
  { pattern := 0x12000000, mask := 0xFFFFFFF0, build := fun w => .wridx (w.extractLsb' 0 4) },
  { pattern := 0x18000000, mask := 0xFFFFFFFF, build := fun _ => .rdpix },
  { pattern := 0x19000000, mask := 0xFFFFFFF0, build := fun w => .rdpal (w.extractLsb' 0 4) },
  { pattern := 0x1A000000, mask := 0xFFFFFFFF, build := fun _ => .rdidx },
  { pattern := 0x1B000000, mask := 0xFFFFFFFF, build := fun _ => .rdout },
  { pattern := 0x1C000000, mask := 0xFFFFFFF0, build := fun w => .rdreg (w.extractLsb' 0 4) },
  { pattern := 0x20000000, mask := 0xFFFFFFFF, build := fun _ => .buildpal },
  { pattern := 0x21000000, mask := 0xFFFFFFFF, build := fun _ => .quant },
  { pattern := 0x22000000, mask := 0xFF000000, build := fun w => .quant1 (w.extractLsb' 0 24) },
  { pattern := 0x23000000, mask := 0xFFFFFFFF, build := fun _ => .pack },
  { pattern := 0x24000000, mask := 0xFFFFFFFF, build := fun _ => .convert },
  { pattern := 0x3F000000, mask := 0xFFFFFFFF, build := fun _ => .clrerr }]

/-- Decoding (30_encoding.md R78): find the row with the word's opcode; if none, the word is illegal; otherwise check
`cmd & mask = match`; if it fails, a reserved bit is set and the word is illegal; otherwise extract the operands. -/
def decode (cmd : Word) : Except DecodeError Instr :=
  match commandTable.find? (fun row => opcodeOf row.pattern == opcodeOf cmd) with
  | none => .error (.undefinedOpcode (opcodeOf cmd))
  | some row => if cmd &&& row.mask = row.pattern then .ok (row.build cmd) else .error (.reservedBitSet (opcodeOf cmd))

/-- The operand field of a command, its reserved bits 0 (30_encoding.md R71, R72). It is also `cmd[23:0]` where a rule hands
the operand field to a trap. -/
def Instr.operandField : Instr → BitVec 24
  | .nop => 0
  | .setmode m => m.setWidth 24
  | .setdim w h => (h.setWidth 24 <<< 8) ||| w.setWidth 24
  | .setptr p => p.setWidth 24
  | .clrpal => 0
  | .wrpix c => c
  | .pushpal b => b.setWidth 24
  | .wridx v => v.setWidth 24
  | .rdpix => 0
  | .rdpal i => i.setWidth 24
  | .rdidx => 0
  | .rdout => 0
  | .rdreg r => r.setWidth 24
  | .buildpal => 0
  | .quant => 0
  | .quant1 c => c
  | .pack => 0
  | .convert => 0
  | .clrerr => 0

/-- The opcode of a command, column OP of the table (30_encoding.md R73). -/
def Instr.opcode : Instr → Byte
  | .nop => 0x00
  | .setmode _ => 0x01
  | .setdim _ _ => 0x02
  | .setptr _ => 0x03
  | .clrpal => 0x04
  | .wrpix _ => 0x10
  | .pushpal _ => 0x11
  | .wridx _ => 0x12
  | .rdpix => 0x18
  | .rdpal _ => 0x19
  | .rdidx => 0x1A
  | .rdout => 0x1B
  | .rdreg _ => 0x1C
  | .buildpal => 0x20
  | .quant => 0x21
  | .quant1 _ => 0x22
  | .pack => 0x23
  | .convert => 0x24
  | .clrerr => 0x3F

/-- The encoding of a command, `(OP << 24) | A` (30_encoding.md R77). -/
def encode (i : Instr) : Word := (i.opcode.setWidth 32 <<< 24) ||| i.operandField.setWidth 32

/-- What the decoder reads from an instruction whose bits are `w`, of which the opcode table gives `nbits`: the command word
is one 32-bit word (30_encoding.md R70), every bit above `nbits` is 0. -/
def decodeTableWord (nbits w : Nat) : Option Instr :=
  match decode (BitVec.ofNat 32 (w % 2 ^ nbits)) with
  | .ok i => some i
  | .error _ => none

end Sys2Proof
end

