-- ==== Sys2Proof/Config.lean ====
section
/-! DEFINITION. Config.lean: what is fixed for one instance of the block: the size parameters, the reference table, and the
free values (constants without a body: nothing can evaluate them, so what is proved of them holds whatever they are). -/

namespace Sys2Proof

/-- The largest width and the largest height, MAXDIM = 24 (00_scope.md R7). -/
abbrev Config.maxDim : Nat := 24

/-- The capacity of PIX and of IDX, NPIX = 576 entries (00_scope.md R7). -/
abbrev Config.nPix : Nat := 576

/-- The capacity of OUT, NOUT = 288 bytes (00_scope.md R7). -/
abbrev Config.nOut : Nat := 288

/-- The capacity of PAL, NPAL = 16 entries (00_scope.md R7). -/
abbrev Config.nPal : Nat := 16

/-- One entry of the reference table: the colour word and the hardware byte (10_state.md R21). The firmware index is the
entry's position. -/
structure RefColor where
  /-- `REF[f].rgb`. -/
  rgb : ColourWord
  /-- `REF[f].hw`. -/
  hw : Byte
deriving DecidableEq, Repr

/-- The reference table: exactly 27 entries (W1 of 10_state.md R21), a firmware index is a position 0..26. -/
abbrev RefTable := Vector RefColor 27

/-- A firmware index, 0..26 (10_state.md R21). -/
abbrev FwIndex := Fin 27

/-- W2 and W3 of 10_state.md R21: the 27 colour words are pairwise different, and so are the 27 hardware bytes. -/
abbrev RefTable.WellFormed (ref : RefTable) : Prop :=
  (∀ f g : FwIndex, ref[f].rgb = ref[g].rgb → f = g) ∧ (∀ f g : FwIndex, ref[f].hw = ref[g].hw → f = g)

/-- Free value (log 1): some arrangement of all colour words, of which the table's colours are the first 27. -/
opaque Config.rgbOrder : Equiv.Perm ColourWord

/-- Free value (log 1): some arrangement of all bytes, of which the table's hardware bytes are the first 27. -/
opaque Config.hwOrder : Equiv.Perm Byte

/-- The instance's reference table REF, a parameter of which only W1 to W3 may be assumed (00_scope.md R6, 92 D9, 93 U5): every
table that satisfies W1 to W3 is of this form for some choice of the two free arrangements (log 1). -/
def Config.ref : RefTable :=
  Vector.ofFn fun f => { rgb := Config.rgbOrder (BitVec.ofNat 24 f.val), hw := Config.hwOrder (BitVec.ofNat 8 f.val) }

/-- Free value (log 2): what `PIX[k]` holds after the reset number `epoch` until it is written (93 U1). -/
opaque Config.pixDraw (epoch k : Nat) : ColourWord

/-- Free value (log 2): what `IDX[k]` holds after the reset number `epoch` until it is written (93 U1). -/
opaque Config.idxDraw (epoch k : Nat) : Nibble

/-- Free value (log 3): what an entry of PAL that nothing has defined holds (93 U2); no command can observe one. -/
opaque Config.palDraw (epoch i : Nat) : Byte

/-- Free value (log 3): what an entry of OUT that nothing has defined holds (93 U2); no command can observe one. -/
opaque Config.outDraw (epoch j : Nat) : Byte

/-- Free value (log 9): the colour of a byte that is no hardware byte of REF. By invariant P1 of 10_state.md R26 no palette
entry is such a byte, so no command of a run uses it. -/
opaque Config.rgbOfInvalidByte (b : Byte) : ColourWord

end Sys2Proof
end

