-- ==== Sys2Proof/Machine/Memory.lean ====
section
/-! DEFINITION. Machine/Memory.lean: one array of the block, addressed by entry number; an access moves exactly one whole entry
(20_memory.md R50). It is held as a list of (entry number, value) pairs in one canonical form, entry numbers strictly
rising. An entry that is not listed has no value of its own ("Give each entry an optional value, empty after reset",
93_implementation_defined.md U1); what a command reads there is the free value of Machine/Ops.lean. -/

namespace Sys2Proof.Machine

/-- One array with entries of `w` bits. -/
abbrev Memory (w : Nat) := List (Nat × BitVec w)

/-- What entry `k` holds: `none` where nothing is listed. -/
def Memory.read {w : Nat} : Memory w → Nat → Option (BitVec w)
  | [], _ => none
  | (j, u) :: m, k => if j = k then some u else Memory.read m k

/-- Write entry `k`, keeping the entry numbers strictly rising. -/
def Memory.write {w : Nat} : Memory w → Nat → BitVec w → Memory w
  | [], k, v => [(k, v)]
  | (j, u) :: m, k, v =>
    if k < j then (k, v) :: (j, u) :: m
    else if k = j then (k, v) :: m
    else (j, u) :: Memory.write m k v

/-- Write the values to the entries `first`, `first + 1`, ..., in that order. -/
def Memory.writeAll {w : Nat} (m : Memory w) (first : Nat) : List (BitVec w) → Memory w
  | [] => m
  | v :: vs => Memory.writeAll (Memory.write m first v) (first + 1) vs

/-- The array whose entries `first`, `first + 1`, ... hold the values and in which nothing else is listed. -/
def Memory.ofListFrom {w : Nat} (first : Nat) : List (BitVec w) → Memory w
  | [] => []
  | v :: vs => (first, v) :: Memory.ofListFrom (first + 1) vs

/-- The array whose entries 0, 1, ... hold the values and in which nothing else is listed. -/
def Memory.ofList {w : Nat} (vs : List (BitVec w)) : Memory w := Memory.ofListFrom 0 vs

/-- Entry numbers strictly rising, the first at least `first`, all below the capacity. -/
def Memory.wfFrom {w : Nat} (capacity first : Nat) : Memory w → Bool
  | [] => true
  | (j, _) :: m => decide (first ≤ j) && decide (j < capacity) && Memory.wfFrom capacity (j + 1) m

/-- The canonical form: entry numbers strictly rising and below the array's capacity. -/
def Memory.wf {w : Nat} (capacity : Nat) (m : Memory w) : Bool := Memory.wfFrom capacity 0 m

end Sys2Proof.Machine
end

