-- ==== Sys2Proof/Machine/State.lean ====
section
/-! DEFINITION. Machine/State.lean: the whole state of the block (10_state.md R20) with the host's two ports beside it, the
reasons a step can stop, and the state after reset (R34). -/

namespace Sys2Proof.Machine

/-- A screen mode, 0, 1 or 2 (00_scope.md R5). Value 3 of the 2-bit register "is reserved and is never held" (10_state.md R23),
so it is no value of this type (log 8). -/
inductive ScreenMode where
  /-- Mode 0: 16 colours, 2 pixels per byte. -/
  | mode0
  /-- Mode 1: 4 colours, 4 pixels per byte. -/
  | mode1
  /-- Mode 2: 2 colours, 8 pixels per byte. -/
  | mode2
deriving DecidableEq, Repr

/-- What the host may do: "present any 32-bit word whenever the previous command's response has been returned; assert reset
between commands" (70_reset_and_hazards.md R238). -/
inductive HostEvent where
  /-- A command word presented on the command port (30_encoding.md R70). -/
  | command (cmd : Word)
  /-- The hardware reset asserted between commands (70_reset_and_hazards.md R230). -/
  | reset
deriving DecidableEq, Repr

/-- Why the machine stops with a fault: no rule of the spec stops the block, and every exception it describes is a trap the
block takes and goes on from (60_exceptions.md R200, R212). There is no constructor: nobody raises one, which is safe. -/
inductive Fault
deriving DecidableEq, Repr

/-- Why a step gives an instruction no meaning. -/
inductive Refusal where
  /-- An instruction that has no meaning in the model yet; raised by an arm of `exec` only. No arm raises it now. Safe: the
  model stops where the block goes on. -/
  | notModelled (mnemonic : String)
deriving DecidableEq, Repr

/-- The state (10_state.md R20), field by field, and the model's own fields after it. -/
structure State where
  /-- `REF`, the read-only table of reference colours (R21); "no command writes it" (log 1). -/
  ref : RefTable
  /-- `MODE` (R23). -/
  mode : ScreenMode
  /-- `WIDTH`, 0 = not configured (R24). -/
  width : BitVec 5
  /-- `HEIGHT`, 0 = not configured (R24). -/
  height : BitVec 5
  /-- `PTR`, the entry pointer (R25). -/
  ptr : BitVec 10
  /-- `PIX[0..575]`, the pixel buffer (R27). -/
  pix : Memory 24
  /-- `PAL[0..15]`, the palette (R26). -/
  pal : Memory 8
  /-- `PLEN`, the palette length (R26). -/
  plen : BitVec 5
  /-- `IDX[0..575]`, the index buffer (R28). -/
  idx : Memory 4
  /-- `OUT[0..287]`, the packed image (R29). -/
  out : Memory 8
  /-- `OLEN`, the packed length in bytes (R29). -/
  olen : BitVec 9
  /-- `ERR`, the cause of the pending trap, 0 = READY (R30). -/
  err : BitVec 4
  /-- `EINFO`, the information word of the pending trap (R30). -/
  einfo : BitVec 24
  /-- The model's own: how many hardware resets were taken, which selects the draw of the unspecified array contents (log 6). -/
  epoch : Nat
  /-- The model's own: what the host has presented and the block has not taken yet, oldest first (log 4). -/
  inbox : List HostEvent
  /-- The model's own: the response words returned so far, oldest first (log 5). -/
  rsps : List Word
deriving DecidableEq, Repr

/-- The state after reset (10_state.md R34, 70_reset_and_hazards.md R230): the registers 0, REF "its fixed contents", the arrays
unspecified (nothing listed), nothing presented by the host yet. -/
def State.reset : State where
  ref := Config.ref
  mode := .mode0
  width := 0
  height := 0
  ptr := 0
  pix := []
  pal := []
  plen := 0
  idx := []
  out := []
  olen := 0
  err := 0
  einfo := 0
  epoch := 0
  inbox := []
  rsps := []

end Sys2Proof.Machine
end

