-- ==== Sys2Proof/Machine/Flags.lean ====
section
/-! DEFINITION. Machine/Flags.lean: the block has no condition flags (10_state.md R32). What a command reports in their place is
the status of its response word (30_encoding.md R76) and, for a trap, a cause (60_exceptions.md R200): both are here. -/

namespace Sys2Proof.Machine

/-- The seven causes (60_exceptions.md R200). -/
inductive Cause where
  /-- A pixel's colour is no reference colour (R201). -/
  | unsupportedColor
  /-- Dimensions out of range, not configured, or a width that does not fill whole bytes (R202). -/
  | dimensionError
  /-- A word that is no command (R203). -/
  | illegalCommand
  /-- A mode, hardware byte or register number that does not exist (R204). -/
  | illegalOperand
  /-- An index not below the mode's capacity (R204). -/
  | indexRange
  /-- A palette that is empty, too long, or full (R204). -/
  | paletteRange
  /-- An entry number outside what may be accessed (R205). -/
  | pointerRange
deriving DecidableEq, Repr

/-- `code(C)`, 1..7 (60_exceptions.md R200). -/
def Cause.code : Cause → BitVec 4
  | .unsupportedColor => 1
  | .dimensionError => 2
  | .illegalCommand => 3
  | .illegalOperand => 4
  | .indexRange => 5
  | .paletteRange => 6
  | .pointerRange => 7

/-- The status of a successful command (30_encoding.md R76). -/
def statusOk : BitVec 4 := 0

/-- The status of a rejected command (30_encoding.md R76, R79). -/
def statusRejected : BitVec 4 := 15

/-- A response word: status in bits 31..28, zero in 27..24, data in 23..0 (30_encoding.md R76). -/
def responseWord (status : BitVec 4) (data : BitVec 24) : Word :=
  (status.setWidth 32 <<< 28) ||| data.setWidth 32

/-- The status field of a response word (30_encoding.md R76). -/
def statusOf (rsp : Word) : BitVec 4 := rsp.extractLsb' 28 4

/-- The data field of a response word (30_encoding.md R76). -/
def dataOf (rsp : Word) : BitVec 24 := rsp.extractLsb' 0 24

end Sys2Proof.Machine
end

