-- ==== Sys2Proof/Machine/Operands.lean ====
section
/-! DEFINITION. Machine/Operands.lean: what operand values mean: screen modes, the reference table's lookups, the channels of a
colour word, the register words that RDREG reads. -/

namespace Sys2Proof.Machine

/-- The screen mode a 2-bit operand names; 3 names none (10_state.md R23, 40_config_and_data.md R91). -/
def ScreenMode.ofBits (m : BitVec 2) : Option ScreenMode :=
  match m.toNat with
  | 0 => some .mode0
  | 1 => some .mode1
  | 2 => some .mode2
  | _ => none

/-- The 2-bit value of the register MODE: the document's mode number (10_state.md R23). -/
def ScreenMode.bits : ScreenMode → BitVec 2
  | .mode0 => 0
  | .mode1 => 1
  | .mode2 => 2

/-- `cpm(m)`, colours per mode (00_scope.md R5). -/
def ScreenMode.cpm : ScreenMode → Nat
  | .mode0 => 16
  | .mode1 => 4
  | .mode2 => 2

/-- `ppb(m)`, pixels per byte (00_scope.md R5). -/
def ScreenMode.ppb : ScreenMode → Nat
  | .mode0 => 2
  | .mode1 => 4
  | .mode2 => 8

/-- `bpp(m)`, bits per pixel (00_scope.md R5). -/
def ScreenMode.bpp : ScreenMode → Nat
  | .mode0 => 4
  | .mode1 => 2
  | .mode2 => 1

/-- The red channel, bits 23..16 (20_memory.md R53). -/
def red (c : ColourWord) : Byte := c.extractLsb' 16 8

/-- The green channel, bits 15..8 (20_memory.md R53). -/
def green (c : ColourWord) : Byte := c.extractLsb' 8 8

/-- The blue channel, bits 7..0 (20_memory.md R53). -/
def blue (c : ColourWord) : Byte := c.extractLsb' 0 8

/-- `rgbOf(f) = REF[f].rgb` (10_state.md R22). -/
def rgbOf (ref : RefTable) (f : FwIndex) : ColourWord := ref[f].rgb

/-- `hwOf(f) = REF[f].hw` (10_state.md R22). -/
def hwOf (ref : RefTable) (f : FwIndex) : Byte := ref[f].hw

/-- `fwOfRgb(c)`: the `f` with `REF[f].rgb = c`, or none; the match is equality of all 24 bits (10_state.md R22). -/
def fwOfRgb (ref : RefTable) (c : ColourWord) : Option FwIndex :=
  (List.finRange 27).find? fun f => rgbOf ref f == c

/-- `fwOfHw(b)`: the `f` with `REF[f].hw = b`, or none (10_state.md R22). -/
def fwOfHw (ref : RefTable) (b : Byte) : Option FwIndex :=
  (List.finRange 27).find? fun f => hwOf ref f == b

/-- A hardware byte is valid when `fwOfHw` finds it (10_state.md R22). -/
def validHw (ref : RefTable) (b : Byte) : Bool := (fwOfHw ref b).isSome

/-- `rgbOfHw(b) = rgbOf(fwOfHw(b))`, the chain by which the quantizer addresses palette entries (10_state.md R22). For a byte
that is no hardware byte, which no palette entry is (P1 of R26), the colour is a free value (log 9). -/
def rgbOfHw (ref : RefTable) (b : Byte) : ColourWord :=
  match fwOfHw ref b with
  | some f => rgbOf ref f
  | none => Config.rgbOfInvalidByte b

/-- SETDIM's legal operand values, 1..24 (40_config_and_data.md R92). -/
def legalDim (d : Byte) : Bool := decide (1 ≤ d.toNat) && decide (d.toNat ≤ Config.maxDim)

/-- `HEIGHT << 8 | WIDTH` in 24 bits: the data word of register DIM, and the info word of the compute commands' DimensionError
(10_state.md R31, 60_exceptions.md R200). -/
def dimWord (s : State) : BitVec 24 := (s.height.setWidth 24 <<< 8) ||| s.width.setWidth 24

/-- The data word of register `r`, 0..6; `none` for the reserved numbers 7..15 (10_state.md R31). -/
def regWord (s : State) (r : Nibble) : Option (BitVec 24) :=
  match r.toNat with
  | 0 => some (s.mode.bits.setWidth 24)
  | 1 => some (dimWord s)
  | 2 => some (s.ptr.setWidth 24)
  | 3 => some (s.plen.setWidth 24)
  | 4 => some (s.olen.setWidth 24)
  | 5 => some (s.err.setWidth 24)
  | 6 => some s.einfo
  | _ => none

end Sys2Proof.Machine
end

