-- ==== Sys2Proof/Machine/Ops.lean ====
section
/-! DEFINITION. Machine/Ops.lean: the named operations that the meanings share: reading and writing the arrays, how a command
ends (respond, trap, reject), the trap return, the hardware reset, and taking an event from the host. -/

namespace Sys2Proof.Machine

/-! ## Reading the arrays (20_memory.md R50) -/

/-- `PIX[k]`: the written value, or the free value of an entry never written since reset (93 U1, log 2). -/
def pixAt (s : State) (k : Nat) : ColourWord := (s.pix.read k).getD (Config.pixDraw s.epoch k)

/-- `IDX[k]`: the written value, or the free value of an entry never written since reset (93 U1, log 2). -/
def idxAt (s : State) (k : Nat) : Nibble := (s.idx.read k).getD (Config.idxDraw s.epoch k)

/-- `PAL[i]`; commands read it only below `PLEN` (10_state.md R26, log 3). -/
def palAt (s : State) (i : Nat) : Byte := (s.pal.read i).getD (Config.palDraw s.epoch i)

/-- `OUT[j]`; commands read it only below `OLEN` (10_state.md R29, log 3). -/
def outAt (s : State) (j : Nat) : Byte := (s.out.read j).getD (Config.outDraw s.epoch j)

/-- `n = WIDTH * HEIGHT`, the number of pixels (00_scope.md R9). -/
def pixelCount (s : State) : Nat := s.width.toNat * s.height.toNat

/-- `PIX[0] .. PIX[n-1]`, in row-major order (20_memory.md R52). -/
def pixels (s : State) : List ColourWord := (List.range (pixelCount s)).map (pixAt s)

/-! ## Writing the arrays -/

/-- `PIX[k] <- c`. -/
def writePix (s : State) (k : Nat) (c : ColourWord) : State := { s with pix := s.pix.write k c }

/-- `IDX[k] <- v`. -/
def writeIdx (s : State) (k : Nat) (v : Nibble) : State := { s with idx := s.idx.write k v }

/-- `PTR <- PTR + 1`, after an access (10_state.md R25). -/
def advancePtr (s : State) : State := { s with ptr := s.ptr + 1 }

/-- `PAL[PLEN] <- b ; PLEN <- PLEN + 1` (40_config_and_data.md R96). -/
def appendPal (s : State) (b : Byte) : State := { s with pal := s.pal.write s.plen.toNat b, plen := s.plen + 1 }

/-- `PAL[i] <- bytes[i]` for every position of the list and `PLEN <-` its length; entries beyond become unspecified
(41_palette_builder.md R124, log 3). -/
def installPalette (s : State) (bytes : List Byte) : State :=
  { s with pal := Memory.ofList bytes, plen := BitVec.ofNat 5 bytes.length }

/-- `IDX[k] <- indices[k]` for every position of the list; entries beyond are unchanged (42_quantizer.md R138). -/
def installIndices (s : State) (indices : List Nibble) : State := { s with idx := s.idx.writeAll 0 indices }

/-- `OUT[j] <- bytes[j]` for every position of the list and `OLEN <-` its length; entries beyond become unspecified
(43_bit_packer.md R155, log 3). -/
def installImage (s : State) (bytes : List Byte) : State :=
  { s with out := Memory.ofList bytes, olen := BitVec.ofNat 9 bytes.length }

/-- `PLEN <- 0`; the contents of PAL become unobservable (40_config_and_data.md R94, log 3). -/
def clearPalette (s : State) : State := { s with pal := [], plen := 0 }

/-- `PLEN <- 0 ; OLEN <- 0`; the contents of PAL and OUT become unspecified (60_exceptions.md R212, log 3). -/
def clearResults (s : State) : State := { s with pal := [], plen := 0, out := [], olen := 0 }

/-! ## How a command ends (30_encoding.md R76, R79) -/

/-- Return a response word. -/
def returnResponse (status : BitVec 4) (data : BitVec 24) (s : State) : State :=
  { s with rsps := s.rsps ++ [responseWord status data] }

/-- `respond(data)`: the command ends successfully (00_scope.md R9). -/
def respond (data : BitVec 24) (s : State) : State := returnResponse statusOk data s

/-- TAKING A TRAP, `raise C(info)` (60_exceptions.md R212): `ERR` and `EINFO` are written, `PLEN` and `OLEN` become 0, the
response carries the code and the info word, everything else keeps its value. -/
def raise (cause : Cause) (info : BitVec 24) (s : State) : State :=
  returnResponse cause.code info { clearResults s with err := cause.code, einfo := info }

/-- THE RETURN FROM A TRAP (60_exceptions.md R214, 40_config_and_data.md R103): `ERR`, `EINFO`, `PLEN`, `OLEN` become 0. -/
def returnFromTrap (s : State) : State := { clearResults s with err := 0, einfo := 0 }

/-- A rejected word: no state changes, status 15, data `zext_24(ERR)` (30_encoding.md R79, 60_exceptions.md R213). -/
def reject (s : State) : State := returnResponse statusRejected (s.err.setWidth 24) s

/-- The envelope of a command that FAULTED does not accept (30_encoding.md R79): run its rule in READY, reject it in FAULTED. -/
def whenReady (s : State) (rule : State → State) : State := if s.err = 0 then rule s else reject s

/-! ## Preconditions of the compute commands -/

/-- No dimensions are configured (60_exceptions.md R202 (b)). -/
def unconfigured (s : State) : Bool := s.width == 0 || s.height == 0

/-- `WIDTH mod ppb(MODE) != 0` (60_exceptions.md R202 (c)). -/
def rowsSplitBytes (s : State) : Bool := s.width.toNat % s.mode.ppb != 0

/-- `PLEN = 0 or PLEN > cpm(MODE)` (42_quantizer.md R138). -/
def paletteUnusable (s : State) : Bool := s.plen == 0 || decide (s.mode.cpm < s.plen.toNat)

/-! ## Events from outside -/

/-- A word that is no command: IllegalCommand with the opcode byte as info in READY, rejected in FAULTED (30_encoding.md R74,
R79, 60_exceptions.md R203). -/
def illegalWord (cmd : Word) (s : State) : State :=
  whenReady s (raise .illegalCommand ((opcodeOf cmd).setWidth 24))

/-- The hardware reset (70_reset_and_hazards.md R230): every register to its reset value, the arrays unspecified anew, REF
unchanged, no response (log 6). -/
def hardwareReset (s : State) : State :=
  { s with
    mode := .mode0, width := 0, height := 0, ptr := 0, pix := [], pal := [], plen := 0, idx := [], out := [], olen := 0,
    err := 0, einfo := 0, epoch := s.epoch + 1 }

/-- Take the next event the host has presented: the event, and the state in which it no longer waits; none when nothing is
presented (70_reset_and_hazards.md R238, log 4). -/
def takeEvent (s : State) : Option (HostEvent × State) :=
  match s.inbox with
  | [] => none
  | e :: rest => some (e, { s with inbox := rest })

/-- Nothing presented: "between commands the block is idle and its state is retained" (60_exceptions.md R222, log 7). -/
def idle (s : State) : State := s

/-- The host presents a command word as the next one the block takes (log 4). -/
def presentNext (cmd : Word) (s : State) : State := { s with inbox := .command cmd :: s.inbox }

end Sys2Proof.Machine
end

