-- ==== Sys2Proof/Machine/BitPacker.lean ====
section
/-! DEFINITION. Machine/BitPacker.lean: the three layouts, the OR accumulation, the inverse, and the command PACK
(43_bit_packer.md R150 to R157). "This layout is a fixed external contract": coded as written (R158). -/

namespace Sys2Proof.Machine

/-- Index bit `i` of `v`, as a byte 0 or 1. -/
def indexBit (v : Nibble) (i : Nat) : Byte := (v.extractLsb' i 1).setWidth 8

/-- Mode 2: `v[0] << (7 - s)` (R151). -/
def contrib2 (slot : Nat) (v : Nibble) : Byte := indexBit v 0 <<< (7 - slot)

/-- Mode 1: `(v[0] << pos) | (v[1] << (pos + 4))` with `pos = 3 - s` (R152). -/
def contrib1 (slot : Nat) (v : Nibble) : Byte :=
  (indexBit v 0 <<< (3 - slot)) ||| (indexBit v 1 <<< (3 - slot + 4))

/-- Mode 0, as 90_conflicts.md C1 resolves it: `(v[0] << (6+pos)) | (v[1] << (2+pos)) | (v[2] << (4+pos)) | (v[3] << pos)` with
`pos = 1 - s` (R153, log 12). -/
def contrib0 (slot : Nat) (v : Nibble) : Byte :=
  (indexBit v 0 <<< (6 + (1 - slot))) ||| (indexBit v 1 <<< (2 + (1 - slot))) |||
    (indexBit v 2 <<< (4 + (1 - slot))) ||| (indexBit v 3 <<< (1 - slot))

/-- `contrib_m(s, v)` (R151, R152, R153). -/
def contrib : ScreenMode → Nat → Nibble → Byte
  | .mode0 => contrib0
  | .mode1 => contrib1
  | .mode2 => contrib2

/-- The accumulation of R154 from slot `slot` on, with the accumulator so far. -/
def packFrom (m : ScreenMode) (slot : Nat) (acc : Byte) : List Nibble → Byte
  | [] => acc
  | v :: vs => packFrom m (slot + 1) (acc ||| contrib m slot v) vs

/-- `packByte(m, [v_0, ..., v_{q-1}])`: `ACC` starts from zero and is updated by OR (R154). -/
def packByte (m : ScreenMode) (vs : List Nibble) : Byte := packFrom m 0 0 vs

/-- Bit `i` of a packed byte, as a nibble 0 or 1. -/
def packedBit (b : Byte) (i : Nat) : Nibble := (b.extractLsb' i 1).setWidth 4

/-- The inverse of the packing, slot by slot; it is no command of the block (R157). -/
def unpackSlot : ScreenMode → Byte → Nat → Nibble
  | .mode2, b, slot => packedBit b (7 - slot)
  | .mode1, b, slot => packedBit b (3 - slot) ||| (packedBit b (7 - slot) <<< 1)
  | .mode0, b, slot =>
    packedBit b (6 + (1 - slot)) ||| (packedBit b (2 + (1 - slot)) <<< 1) |||
      (packedBit b (4 + (1 - slot)) <<< 2) ||| (packedBit b (1 - slot) <<< 3)

/-- The indices of output byte `j`, in slot order: `IDX[j*q + s]`, `s = 0..q-1` (R150). -/
def slotIndices (s : State) (j : Nat) : List Nibble :=
  (List.range s.mode.ppb).map fun slot => idxAt s (j * s.mode.ppb + slot)

/-- The packed bytes, `n div q` of them (R155). -/
def packedBytes (s : State) : List Byte :=
  (List.range (pixelCount s / s.mode.ppb)).map fun j => packByte s.mode (slotIndices s j)

/-- PACK's writes: `OUT[0..OLEN-1]` and `OLEN` (R155). -/
def packIndices (s : State) : State := installImage s (packedBytes s)

/-- The lowest `k < n` with `IDX[k] >= cpm(MODE)` (R155). -/
def firstBadIndex (s : State) : Option Nat :=
  (List.range (pixelCount s)).find? fun k => decide (s.mode.cpm ≤ (idxAt s k).toNat)

/-- `IDX[k] << 16 | k` in 24 bits (60_exceptions.md R200). -/
def badIndexInfo (s : State) (k : Nat) : BitVec 24 := ((idxAt s k).setWidth 24 <<< 16) ||| BitVec.ofNat 24 k

/-- PACK: DimensionError when no dimensions are configured or the width does not fill whole bytes, then IndexRange for the
lowest entry out of range; otherwise writes OUT and OLEN and responds with the new OLEN (R155). -/
def execPack (s : State) : Host.Outcome State Fault Refusal :=
  .next <| whenReady s fun s =>
    if unconfigured s || rowsSplitBytes s then raise .dimensionError (dimWord s) s
    else
      match firstBadIndex s with
      | some k => raise .indexRange (badIndexInfo s k) s
      | none => respond ((packIndices s).olen.setWidth 24) (packIndices s)

end Sys2Proof.Machine
end

