-- ==== Sys2Proof/Machine/Configuration.lean ====
section
/-! DEFINITION. Machine/Configuration.lean: NOP, SETMODE, SETDIM, SETPTR, CLRPAL (40_config_and_data.md R90 to R94). -/

namespace Sys2Proof.Machine

/-- NOP: responds, in READY and in FAULTED (R90). -/
def execNop (s : State) : Host.Outcome State Fault Refusal := .next (respond 0 s)

/-- SETMODE m: writes MODE only; `m = 3` raises IllegalOperand (R91). -/
def execSetmode (m : BitVec 2) (s : State) : Host.Outcome State Fault Refusal :=
  .next <| whenReady s fun s =>
    match ScreenMode.ofBits m with
    | none => raise .illegalOperand (Instr.setmode m).operandField s
    | some mode => respond 0 { s with mode := mode }

/-- SETDIM w, h: writes WIDTH and HEIGHT, both at once; a side outside 1..24 raises DimensionError (R92). -/
def execSetdim (w h : BitVec 8) (s : State) : Host.Outcome State Fault Refusal :=
  .next <| whenReady s fun s =>
    if legalDim w && legalDim h then respond 0 { s with width := w.setWidth 5, height := h.setWidth 5 }
    else raise .dimensionError (Instr.setdim w h).operandField s

/-- SETPTR p: writes PTR only; every 10-bit value is accepted (R93). -/
def execSetptr (p : BitVec 10) (s : State) : Host.Outcome State Fault Refusal :=
  .next <| whenReady s fun s => respond 0 { s with ptr := p }

/-- CLRPAL: empties the palette (R94). -/
def execClrpal (s : State) : Host.Outcome State Fault Refusal :=
  .next <| whenReady s fun s => respond 0 (clearPalette s)

end Sys2Proof.Machine
end

