-- ==== Sys2Proof/Machine/PaletteBuilder.lean ====
section
/-! DEFINITION. Machine/PaletteBuilder.lean: counting, ranking, truncation and the command BUILDPAL
(41_palette_builder.md R120 to R124). -/

namespace Sys2Proof.Machine

/-- The occurrence counts `CNT[0..26]`, local to one command (10_state.md R33); a count is at most 576, so the 10 bits of the
spec never overflow (41_palette_builder.md R120, log 10). -/
abbrev Counts := Vector Nat 27

/-- "initialize all 27 counts to 0, including colors never used" (R120). -/
def zeroCounts : Counts := Vector.replicate 27 0

/-- The counting scan (R120): in row-major order, stopping at the first pixel that is no reference colour (R121). -/
def scanCounts (ref : RefTable) : List ColourWord → Counts → Except ColourWord Counts
  | [], cnt => .ok cnt
  | c :: cs, cnt =>
    match fwOfRgb ref c with
    | none => .error c
    | some f => scanCounts ref cs (cnt.set f (cnt[f] + 1))

/-- The ranking order (R122): count descending, firmware index descending on ties. -/
def before (cnt : Counts) (f g : FwIndex) : Bool :=
  decide (cnt[g] < cnt[f]) || (decide (cnt[f] = cnt[g]) && decide (g < f))

/-- `U = { f | CNT[f] > 0 }` (R122). -/
def usedColours (cnt : Counts) : List FwIndex := (List.finRange 27).filter fun f => decide (0 < cnt[f])

/-- The ranked list: `U` sorted by `before` (R122). -/
def rank (cnt : Counts) : List FwIndex := (usedColours cnt).insertionSort fun f g => before cnt f g = true

/-- The palette: the hardware bytes of the first `min(|U|, cpm(MODE))` ranked colours (R123). -/
def paletteOf (ref : RefTable) (mode : ScreenMode) (cnt : Counts) : List Byte :=
  ((rank cnt).take mode.cpm).map (hwOf ref)

/-- BUILDPAL's writes once the counts are known: `PAL[0..L-1]` and `PLEN` (R124). -/
def buildPalette (cnt : Counts) (s : State) : State := installPalette s (paletteOf s.ref s.mode cnt)

/-- BUILDPAL: DimensionError when no dimensions are configured, then UnsupportedColor with the first pixel that is no reference
colour; otherwise writes PAL and PLEN and responds with the new PLEN (R124). -/
def execBuildpal (s : State) : Host.Outcome State Fault Refusal :=
  .next <| whenReady s fun s =>
    if unconfigured s then raise .dimensionError (dimWord s) s
    else
      match scanCounts s.ref (pixels s) zeroCounts with
      | .error c => raise .unsupportedColor c s
      | .ok cnt => respond ((buildPalette cnt s).plen.setWidth 24) (buildPalette cnt s)

end Sys2Proof.Machine
end

