-- ==== Sys2Proof/Machine/Quantizer.lean ====
section
/-! DEFINITION. Machine/Quantizer.lean: distance, nearest colour, the palette as RGB, and the commands QUANT and QUANT1
(42_quantizer.md R135 to R139). -/

namespace Sys2Proof.Machine

/-- The absolute difference of two channels, without wrap-around (R135). -/
def channelDiff (a b : Byte) : Nat := (a.toNat - b.toNat) + (b.toNat - a.toNat)

/-- `dist(a, b)`, the Manhattan distance of two colour words, 0..765 (R135). -/
def colourDist (a b : ColourWord) : Nat :=
  channelDiff (red a) (red b) + channelDiff (green a) (green b) + channelDiff (blue a) (blue b)

/-- The scan of `nearest` from position `i` on, with the best position and distance so far: "strictly less, never <=" (R136). -/
def nearestScan (p : ColourWord) : List ColourWord → (i best bestd : Nat) → Nat
  | [], _, best, _ => best
  | c :: cs, i, best, bestd =>
    if colourDist p c < bestd then nearestScan p cs (i + 1) i (colourDist p c) else nearestScan p cs (i + 1) best bestd

/-- `nearest(p, Lst)` (R136). It "is not defined for an empty list; the commands trap before calling it with one": the value
written for the empty list is never used (log 11). -/
def nearest (p : ColourWord) : List ColourWord → Nat
  | [] => 0
  | c :: cs => nearestScan p cs 1 0 (colourDist p c)

/-- `palRgb`: the active palette's colours converted back to RGB (R137). -/
def palRgb (s : State) : List ColourWord := (List.range s.plen.toNat).map fun i => rgbOfHw s.ref (palAt s i)

/-- The index QUANT gives a colour (R138). -/
def quantizeColour (s : State) (p : ColourWord) : Nat := nearest p (palRgb s)

/-- QUANT's writes: `IDX[k] <- nearest(PIX[k], palRgb)` for every `k < n` (R138). -/
def quantizePixels (s : State) : State :=
  installIndices s ((pixels s).map fun p => BitVec.ofNat 4 (quantizeColour s p))

/-- QUANT: DimensionError when no dimensions are configured, then PaletteRange; otherwise writes `IDX[0..n-1]` only (R138). -/
def execQuant (s : State) : Host.Outcome State Fault Refusal :=
  .next <| whenReady s fun s =>
    if unconfigured s then raise .dimensionError (dimWord s) s
    else if paletteUnusable s then raise .paletteRange (s.plen.setWidth 24) s
    else respond 0 (quantizePixels s)

/-- QUANT1 c: responds with the index of one colour; changes no state (R139). -/
def execQuant1 (c : ColourWord) (s : State) : Host.Outcome State Fault Refusal :=
  .next <| whenReady s fun s =>
    if paletteUnusable s then raise .paletteRange (s.plen.setWidth 24) s
    else respond (BitVec.ofNat 24 (quantizeColour s c)) s

end Sys2Proof.Machine
end

