-- ==== Sys2Proof/Machine/Convert.lean ====
section
/-! DEFINITION. Machine/Convert.lean: the whole conversion CONVERT (44_convert.md R170). -/

namespace Sys2Proof.Machine

/-- The three phases of CONVERT once the counts are known: palette, indices, packed bytes (R170). -/
def convertWith (cnt : Counts) (s : State) : State := packIndices (quantizePixels (buildPalette cnt s))

/-- CONVERT: DimensionError (no dimensions, or a width that does not fill whole bytes) before any pixel is looked at, then
UnsupportedColor with the first pixel that is no reference colour; otherwise the three phases, and the new OLEN as the
response (R170). -/
def execConvert (s : State) : Host.Outcome State Fault Refusal :=
  .next <| whenReady s fun s =>
    if unconfigured s || rowsSplitBytes s then raise .dimensionError (dimWord s) s
    else
      match scanCounts s.ref (pixels s) zeroCounts with
      | .error c => raise .unsupportedColor c s
      | .ok cnt => respond ((convertWith cnt s).olen.setWidth 24) (convertWith cnt s)

end Sys2Proof.Machine
end

