-- ==== Sys2Proof/Machine/DataMovement.lean ====
section
/-! DEFINITION. Machine/DataMovement.lean: WRPIX, PUSHPAL, WRIDX, RDPIX, RDPAL, RDIDX, RDOUT (40_config_and_data.md R95 to R101). -/

namespace Sys2Proof.Machine

/-- `PTR > 575`: outside PIX and IDX (60_exceptions.md R205). -/
def pointerOutside (s : State) : Bool := decide (Config.nPix ≤ s.ptr.toNat)

/-- `raise PointerRange(zext_24(PTR))`: no access is performed and PTR is not incremented (60_exceptions.md R205). -/
def raisePointer (s : State) : State := raise .pointerRange (s.ptr.setWidth 24) s

/-- WRPIX c: stores the colour word at PTR and advances PTR (R95). -/
def execWrpix (c : ColourWord) (s : State) : Host.Outcome State Fault Refusal :=
  .next <| whenReady s fun s =>
    if pointerOutside s then raisePointer s
    else respond 0 (advancePtr (writePix s s.ptr.toNat c))

/-- PUSHPAL b: appends a valid hardware byte to the palette; IllegalOperand for a byte not in REF, then PaletteRange for a full
palette (R96). -/
def execPushpal (b : Byte) (s : State) : Host.Outcome State Fault Refusal :=
  .next <| whenReady s fun s =>
    if validHw s.ref b then
      if s.plen = 16 then raise .paletteRange (s.plen.setWidth 24) s
      else respond 0 (appendPal s b)
    else raise .illegalOperand (Instr.pushpal b).operandField s

/-- WRIDX v: stores the index at PTR and advances PTR (R97). -/
def execWridx (v : Nibble) (s : State) : Host.Outcome State Fault Refusal :=
  .next <| whenReady s fun s =>
    if pointerOutside s then raisePointer s
    else respond 0 (advancePtr (writeIdx s s.ptr.toNat v))

/-- RDPIX: returns `PIX[PTR]` and advances PTR (R98). -/
def execRdpix (s : State) : Host.Outcome State Fault Refusal :=
  .next <| whenReady s fun s =>
    if pointerOutside s then raisePointer s
    else respond (pixAt s s.ptr.toNat) (advancePtr s)

/-- RDPAL i: returns `PAL[i]` for `i` below PLEN; changes no state (R99). -/
def execRdpal (i : Nibble) (s : State) : Host.Outcome State Fault Refusal :=
  .next <| whenReady s fun s =>
    if s.plen.toNat ≤ i.toNat then raise .pointerRange (i.setWidth 24) s
    else respond ((palAt s i.toNat).setWidth 24) s

/-- RDIDX: returns `IDX[PTR]` and advances PTR (R100). -/
def execRdidx (s : State) : Host.Outcome State Fault Refusal :=
  .next <| whenReady s fun s =>
    if pointerOutside s then raisePointer s
    else respond ((idxAt s s.ptr.toNat).setWidth 24) (advancePtr s)

/-- RDOUT: returns `OUT[PTR]` for PTR below OLEN and advances PTR (R101). -/
def execRdout (s : State) : Host.Outcome State Fault Refusal :=
  .next <| whenReady s fun s =>
    if s.olen.toNat ≤ s.ptr.toNat then raisePointer s
    else respond ((outAt s s.ptr.toNat).setWidth 24) (advancePtr s)

end Sys2Proof.Machine
end

