-- ==== Sys2Proof/Machine/Status.lean ====
section
/-! DEFINITION. Machine/Status.lean: RDREG and CLRERR, accepted in READY and in FAULTED (40_config_and_data.md R102, R103). -/

namespace Sys2Proof.Machine

/-- RDREG r: returns the data word of register r; a reserved number raises IllegalOperand in READY and is rejected in FAULTED
(R102). -/
def execRdreg (r : Nibble) (s : State) : Host.Outcome State Fault Refusal :=
  .next <|
    match regWord s r with
    | some data => respond data s
    | none => whenReady s (raise .illegalOperand (Instr.rdreg r).operandField)

/-- CLRERR: the trap return; in READY a soft clear of the results (R103). -/
def execClrerr (s : State) : Host.Outcome State Fault Refusal := .next (respond 0 (returnFromTrap s))

end Sys2Proof.Machine
end

