-- ==== Sys2Proof/Machine/Dispatch.lean ====
section
/-! DEFINITION. Machine/Dispatch.lean: one arm per command, each one direct call of its meaning. -/

namespace Sys2Proof.Machine

/-- The meaning of a command in a state. -/
def exec (i : Instr) (s : State) : Host.Outcome State Fault Refusal :=
  match i with
  | .nop => Sys2Proof.Machine.execNop s
  | .setmode m => Sys2Proof.Machine.execSetmode m s
  | .setdim w h => Sys2Proof.Machine.execSetdim w h s
  | .setptr p => Sys2Proof.Machine.execSetptr p s
  | .clrpal => Sys2Proof.Machine.execClrpal s
  | .wrpix c => Sys2Proof.Machine.execWrpix c s
  | .pushpal b => Sys2Proof.Machine.execPushpal b s
  | .wridx v => Sys2Proof.Machine.execWridx v s
  | .rdpix => Sys2Proof.Machine.execRdpix s
  | .rdpal k => Sys2Proof.Machine.execRdpal k s
  | .rdidx => Sys2Proof.Machine.execRdidx s
  | .rdout => Sys2Proof.Machine.execRdout s
  | .rdreg r => Sys2Proof.Machine.execRdreg r s
  | .buildpal => Sys2Proof.Machine.execBuildpal s
  | .quant => Sys2Proof.Machine.execQuant s
  | .quant1 c => Sys2Proof.Machine.execQuant1 c s
  | .pack => Sys2Proof.Machine.execPack s
  | .convert => Sys2Proof.Machine.execConvert s
  | .clrerr => Sys2Proof.Machine.execClrerr s

end Sys2Proof.Machine
end

