-- ==== Sys2Proof/Machine/Sequencer.lean ====
section
/-! DEFINITION. Machine/Sequencer.lean: what one host event makes the block do (30_encoding.md R79,
70_reset_and_hazards.md R230, R238). -/

namespace Sys2Proof.Machine

/-- Execute one command word (30_encoding.md R79): the matching command's meaning, or the illegal word's. -/
def runWord (cmd : Word) (s : State) : Host.Outcome State Fault Refusal :=
  match decode cmd with
  | .ok i => exec i s
  | .error _ => .next (illegalWord cmd s)

/-- Take one event: a command word is executed, the hardware reset resets. -/
def runEvent (e : HostEvent) (s : State) : Host.Outcome State Fault Refusal :=
  match e with
  | .command cmd => runWord cmd s
  | .reset => .next (hardwareReset s)

end Sys2Proof.Machine
end

