-- ==== Sys2Proof/Machine/Step.lean ====
section
/-! DEFINITION. Machine/Step.lean: one step is one event taken from the host (70_reset_and_hazards.md R236, R238): a command word
executed by the envelope of 30_encoding.md R79, or the hardware reset; with nothing presented the block is idle. -/

namespace Sys2Proof.Machine

/-- One step. -/
def step (s : State) : Host.Outcome State Fault Refusal :=
  match takeEvent s with
  | none => .next (idle s)
  | some (e, t) => runEvent e t

/-- `s` with the command word `w` (of `nbits` bits, the bits above them 0) presented as the next event (log 4). -/
def State.withFetchWord (s : State) (nbits w : Nat) : State := presentNext (BitVec.ofNat 32 (w % 2 ^ nbits)) s

end Sys2Proof.Machine
end

