-- ==== Sys2Proof/Safety.lean ====
section
/-! DEFINITION. Safety.lean: the terms in which statements about the machine are written: what a command leaves unchanged, what
a trap and a rejection are, and the invariant of the reachable states. -/

namespace Sys2Proof.Machine

/-! ## Frames -/

/-- The pieces of the state (10_state.md R20) and the model's own `epoch` and `inbox`. The responses are spoken of apart. -/
inductive Field where
  | ref | mode | width | height | ptr | pix | pal | plen | idx | out | olen | err | einfo | epoch | inbox
deriving DecidableEq, Repr

/-- One piece of the state is the same in `t` as in `s`; an array is when every entry reads the same. -/
def Unchanged (s t : State) : Field → Prop
  | .ref => t.ref = s.ref
  | .mode => t.mode = s.mode
  | .width => t.width = s.width
  | .height => t.height = s.height
  | .ptr => t.ptr = s.ptr
  | .pix => ∀ k, pixAt t k = pixAt s k
  | .pal => ∀ i, palAt t i = palAt s i
  | .plen => t.plen = s.plen
  | .idx => ∀ k, idxAt t k = idxAt s k
  | .out => ∀ j, outAt t j = outAt s j
  | .olen => t.olen = s.olen
  | .err => t.err = s.err
  | .einfo => t.einfo = s.einfo
  | .epoch => t.epoch = s.epoch
  | .inbox => t.inbox = s.inbox

/-- Everything but the named pieces of state is the same in `t` as in `s`. -/
def OnlyChanges (fields : List Field) (s t : State) : Prop := ∀ f, f ∉ fields → Unchanged s t f

/-- Exactly one response word is returned, with this status and this data (30_encoding.md R76). -/
def Responds (status : BitVec 4) (data : BitVec 24) (s t : State) : Prop :=
  t.rsps = s.rsps ++ [responseWord status data]

/-! ## How a command ends -/

/-- The command completes successfully with `data` as the response's data, and leaves a state with the property. -/
def Completes (i : Instr) (s : State) (data : BitVec 24) (post : State → Prop) : Prop :=
  ∃ t, exec i s = .next t ∧ Responds statusOk data s t ∧ post t

/-- The trap entry (60_exceptions.md R212): `ERR`, `EINFO`, `PLEN`, `OLEN` and the response as it says; the contents of PAL and
OUT unspecified; everything else as before the command. -/
def Trapped (cause : Cause) (info : BitVec 24) (s t : State) : Prop :=
  t.err = cause.code ∧ t.einfo = info ∧ t.plen = 0 ∧ t.olen = 0 ∧ Responds cause.code info s t ∧
    OnlyChanges [.err, .einfo, .plen, .olen, .pal, .out] s t

/-- The command takes the trap of this cause with this info word. -/
def Traps (i : Instr) (s : State) (cause : Cause) (info : BitVec 24) : Prop :=
  ∃ t, exec i s = .next t ∧ Trapped cause info s t

/-- A rejected word: no state changes, status 15, data `zext_24(ERR)` (60_exceptions.md R213). -/
def Rejected (s t : State) : Prop := Responds statusRejected (s.err.setWidth 24) s t ∧ OnlyChanges [] s t

/-- The causes that the command can raise (60_exceptions.md R200, columns Name and Raised by). -/
def mayRaise : Instr → List Cause
  | .nop => []
  | .setmode _ => [.illegalOperand]
  | .setdim _ _ => [.dimensionError]
  | .setptr _ => []
  | .clrpal => []
  | .wrpix _ => [.pointerRange]
  | .pushpal _ => [.illegalOperand, .paletteRange]
  | .wridx _ => [.pointerRange]
  | .rdpix => [.pointerRange]
  | .rdpal _ => [.pointerRange]
  | .rdidx => [.pointerRange]
  | .rdout => [.pointerRange]
  | .rdreg _ => [.illegalOperand]
  | .buildpal => [.unsupportedColor, .dimensionError]
  | .quant => [.dimensionError, .paletteRange]
  | .quant1 _ => [.paletteRange]
  | .pack => [.dimensionError, .indexRange]
  | .convert => [.unsupportedColor, .dimensionError]
  | .clrerr => []

/-- The commands that FAULTED accepts: NOP, CLRERR and RDREG of a register that exists (30_encoding.md R79). -/
def acceptedInFaulted : Instr → Bool
  | .nop => true
  | .clrerr => true
  | .rdreg r => decide (r.toNat ≤ 6)
  | _ => false

/-! ## Pictures of an image -/

/-- How often reference colour `f` occurs among the image's pixels (41_palette_builder.md R120). -/
def occurrences (s : State) (f : FwIndex) : Nat := (pixels s).count (rgbOf s.ref f)

/-- `before(f, g)` of 41_palette_builder.md R122, over the occurrences. -/
def RankedBefore (s : State) (f g : FwIndex) : Prop :=
  occurrences s g < occurrences s f ∨ (occurrences s f = occurrences s g ∧ g < f)

/-- The colour word is one of the 27 reference colours (41_palette_builder.md R121). -/
def IsReferenceColour (ref : RefTable) (c : ColourWord) : Prop := ∃ f : FwIndex, rgbOf ref f = c

/-- The byte is one of the 27 hardware bytes (10_state.md R22, "valid"). -/
def IsHardwareByte (ref : RefTable) (b : Byte) : Prop := ∃ f : FwIndex, hwOf ref f = b

/-- Every pixel of the image is a reference colour. -/
def AllReference (s : State) : Prop := ∀ k, k < pixelCount s → IsReferenceColour s.ref (pixAt s k)

/-- `t`'s palette is what 41_palette_builder.md R122 and R123 make of `s`'s image: the used colours listed in the order of
`RankedBefore`, cut to the mode's capacity, as hardware bytes. -/
def PaletteIsRanked (s t : State) : Prop :=
  ∃ r : List FwIndex, r.Pairwise (RankedBefore s) ∧ (∀ f, f ∈ r ↔ 0 < occurrences s f) ∧
    t.plen.toNat = min r.length s.mode.cpm ∧
    ∀ i f, i < t.plen.toNat → r[i]? = some f → palAt t i = hwOf s.ref f

/-- Dimensions are configured (10_state.md R24). -/
def Configured (s : State) : Prop := s.width ≠ 0 ∧ s.height ≠ 0

/-- READY (60_exceptions.md R213). -/
def Ready (s : State) : Prop := s.err = 0

/-- PACK's and CONVERT's dimension precondition: configured, and the width a multiple of `ppb(MODE)` (43_bit_packer.md R155). -/
def PackableSize (s : State) : Prop := Configured s ∧ s.width.toNat % s.mode.ppb = 0

/-- QUANT's palette precondition: not empty and not longer than the mode allows (42_quantizer.md R138). -/
def PaletteUsable (s : State) : Prop := s.plen ≠ 0 ∧ s.plen.toNat ≤ s.mode.cpm

/-- The two states hold the same image: REF, MODE, WIDTH, HEIGHT and `PIX[0..n-1]` (44_convert.md R172). -/
def SameImage (s s' : State) : Prop :=
  s'.ref = s.ref ∧ s'.mode = s.mode ∧ s'.width = s.width ∧ s'.height = s.height ∧
    ∀ k, k < pixelCount s → pixAt s' k = pixAt s k

/-- The two states hold the same readable results: PLEN and `PAL[0..PLEN-1]`, OLEN and `OUT[0..OLEN-1]`. -/
def SameResults (t t' : State) : Prop :=
  t'.plen = t.plen ∧ (∀ i, i < t.plen.toNat → palAt t' i = palAt t i) ∧
    t'.olen = t.olen ∧ ∀ j, j < t.olen.toNat → outAt t' j = outAt t j

/-! ## The invariant -/

/-- What holds of every state a run from reset reaches, each clause with the rule that says so. -/
structure State.Inv (s : State) : Prop where
  /-- W2 and W3 of 10_state.md R21. -/
  refWellFormed : s.ref.WellFormed
  /-- "Values 25..31 are never held" (R24). -/
  widthInRange : s.width.toNat ≤ Config.maxDim
  /-- "Values 25..31 are never held" (R24). -/
  heightInRange : s.height.toNat ≤ Config.maxDim
  /-- "SETDIM writes only values 1..24 into both at once" (R24). -/
  bothConfigured : s.width = 0 ↔ s.height = 0
  /-- PIX has entries 0..575 (R27), in canonical form. -/
  pixCanonical : s.pix.wf Config.nPix = true
  /-- IDX has entries 0..575 (R28), in canonical form. -/
  idxCanonical : s.idx.wf Config.nPix = true
  /-- PLEN is 0..16 (R26). -/
  plenInRange : s.plen.toNat ≤ Config.nPal
  /-- The palette proper is `PAL[0] .. PAL[PLEN-1]` (R26): nothing is listed beyond (the model's choice, log 3). -/
  palCanonical : s.pal.wf s.plen.toNat = true
  /-- Every entry of the palette proper is defined. -/
  palDefined : ∀ i, i < s.plen.toNat → (s.pal.read i).isSome = true
  /-- P1: for every `i < PLEN`, `PAL[i]` is a valid hardware byte (R26). -/
  palValid : ∀ i, i < s.plen.toNat → validHw s.ref (palAt s i) = true
  /-- OLEN is 0..288 (R29). -/
  olenInRange : s.olen.toNat ≤ Config.nOut
  /-- The packed image proper is `OUT[0] .. OUT[OLEN-1]` (R29): nothing is listed beyond (the model's choice, log 3). -/
  outCanonical : s.out.wf s.olen.toNat = true
  /-- Every byte of the packed image proper is defined. -/
  outDefined : ∀ j, j < s.olen.toNat → (s.out.read j).isSome = true
  /-- ERR is 0 or the code of a cause, 1..7 (R30, 60_exceptions.md R200). -/
  errInRange : s.err.toNat ≤ 7
  /-- In READY, EINFO is 0: reset and CLRERR clear both, a trap sets both (R30). -/
  readyClears : s.err = 0 → s.einfo = 0
  /-- In FAULTED no result can be read: the trap set PLEN and OLEN to 0, and nothing but CLRERR or reset follows
  (60_exceptions.md R212, R213). -/
  faultedEmpty : s.err ≠ 0 → s.plen = 0 ∧ s.olen = 0

/-! ## Runs (70_reset_and_hazards.md R238) -/

/-- Commands executed one after another, each to completion, in the order they are given (10_state.md R32). -/
def execAll : List Instr → State → Host.Outcome State Fault Refusal
  | [], s => .next s
  | i :: is, s =>
    match exec i s with
    | .next t => execAll is t
    | .fault f => .fault f
    | .refused r => .refused r

/-- "The run has *gone wrong* if any response had a non-zero status" (70_reset_and_hazards.md R238). -/
def wentWrong (s : State) : Bool := s.rsps.any fun r => statusOf r != 0

end Sys2Proof.Machine
end

