-- ==== Sys2Proof/Certificates/Slice0/Obligations.lean ====
section
/-! DEFINITION. Certificates/Slice0/Obligations.lean: the statements for the provers, in the terms of Safety.lean. Each
docstring names the rule the statement formalises. A response's data is written out as the rules give it. -/

open Sys2Proof Sys2Proof.Machine

/-! ## Encoding and decoding (30_encoding.md) -/

/-- Decoding an encoded command gives the command back, for every command and every operand value (R71, R72, R77, R78). -/
def Obligations.DecodeOfEncodeIsTheCommand : Prop :=
  ∀ i : Instr, decode (encode i) = .ok i

/-- A word that decodes to a command is that command's encoding: no bit of a word is dropped, and no command has two words
(R74 "no encoding that executes as another command", R78). -/
def Obligations.WordOfACommandIsItsEncoding : Prop :=
  ∀ (cmd : Word) (i : Instr), decode cmd = .ok i → encode i = cmd

/-- A word is a row's command exactly when `cmd & mask = match` (R73). -/
def Obligations.DecoderFollowsMatchAndMask : Prop :=
  ∀ (cmd : Word) (row : Row), row ∈ commandTable →
    (cmd &&& row.mask = row.pattern ↔ decode cmd = .ok (row.build cmd))

/-- Words of the spec's decoding vectors (95_test_vectors.md V51 to V67) decode as they say. -/
def Obligations.WordsOfTheVectorsDecode : Prop :=
  decode 0x00000000 = .ok .nop ∧ decode 0x01000002 = .ok (.setmode 2) ∧ decode 0x02000104 = .ok (.setdim 4 1) ∧
    decode 0x0300023F = .ok (.setptr 575) ∧ decode 0x10FF8000 = .ok (.wrpix 0xFF8000) ∧ decode 0x1C000009 = .ok (.rdreg 9) ∧
    decode 0x24000000 = .ok .convert ∧ decode 0x3F000000 = .ok .clrerr ∧
    decode 0x02010101 = .error (.reservedBitSet 0x02) ∧ decode 0x05000000 = .error (.undefinedOpcode 0x05)

/-- A command whose operand value is outside its legal range decodes as that command, and the command raises IllegalOperand
or DimensionError with `cmd[23:0]` (R74, R91, R92, R102). -/
def Obligations.IllegalOperandValuesTrap : Prop :=
  ∀ (i : Instr) (s : State), Ready s → i.wellFormed = false →
    decode (encode i) = .ok i ∧
      (Traps i s .illegalOperand i.operandField ∨ Traps i s .dimensionError i.operandField)

/-! ## One step (30_encoding.md R79, 70_reset_and_hazards.md R230, R238) -/

/-- When the next event is a word that decodes to a command, the step is that command's meaning in the state in which the
word no longer waits (30_encoding.md R79). That presented words wait in `inbox` is the model's choice (log 4). -/
def Obligations.StepRunsTheDecodedCommand : Prop :=
  ∀ (s : State) (cmd : Word) (rest : List HostEvent) (i : Instr),
    s.inbox = .command cmd :: rest → decode cmd = .ok i → step s = exec i { s with inbox := rest }

/-- A word that matches no row traps IllegalCommand with the opcode byte in READY, and is rejected in FAULTED (R203). -/
def Obligations.IllegalWordTrapsOrIsRejected : Prop :=
  ∀ (s : State) (cmd : Word) (rest : List HostEvent),
    s.inbox = .command cmd :: rest → (∀ row ∈ commandTable, cmd &&& row.mask ≠ row.pattern) →
    ∃ t, step s = .next t ∧
      (s.err = 0 → Trapped .illegalCommand ((cmd.extractLsb' 24 8).setWidth 24) { s with inbox := rest } t) ∧
      (s.err ≠ 0 → Rejected { s with inbox := rest } t)

/-- The hardware reset sets every register to its reset value, leaves REF (R34), returns no response, and leaves a state in which
RDOUT and RDPAL trap PointerRange (R230). The contents of the arrays are unspecified after it (R34, R230); that every array then
lists nothing, so that each entry reads as a free value, is the model's choice (log 2, log 3), and so is the reset as an event
between commands (log 6). -/
def Obligations.HardwareResetClearsTheBlock : Prop :=
  ∀ (s : State) (rest : List HostEvent), s.inbox = .reset :: rest →
    ∃ t, step s = .next t ∧ t.ref = s.ref ∧ t.inbox = rest ∧ t.rsps = s.rsps ∧
      t.mode.bits = 0 ∧ t.width = 0 ∧ t.height = 0 ∧ t.ptr = 0 ∧ t.plen = 0 ∧ t.olen = 0 ∧ t.err = 0 ∧ t.einfo = 0 ∧
      (∀ k, t.pix.read k = none ∧ t.idx.read k = none ∧ t.pal.read k = none ∧ t.out.read k = none) ∧
      Traps .rdout t .pointerRange 0 ∧ ∀ i : Nibble, Traps (.rdpal i) t .pointerRange (i.setWidth 24)

/-- With nothing presented the block is idle: its state is retained and no response is produced (R222, R238). That an idle block
takes a step at all is the model's choice (log 7). -/
def Obligations.IdleBlockRetainsItsState : Prop :=
  ∀ s : State, s.inbox = [] → step s = .next s

/-- No step stops: every state has a next state, whatever the host presents: a command, an illegal word, the reset between commands,
or nothing (R78, R200, R237). That an idle block takes a step at all is the model's choice (log 7), and so is the reset as an event
between commands: a reset in the middle of a command, of which "every command completes" would be false, is not modelled (log 6). -/
def Obligations.EveryStepHasANextState : Prop :=
  ∀ s : State, ∃ t, step s = .next t

/-- Exactly one response per command word, of the form of R76: bits 27..24 zero; status 0..7 or 15; a trap's status and data are
the new ERR and EINFO; a rejection's data is ERR (R76, R238). -/
def Obligations.OneWellFormedResponsePerWord : Prop :=
  ∀ (s : State) (cmd : Word) (rest : List HostEvent), s.inbox = .command cmd :: rest →
    ∃ t rsp, step s = .next t ∧ t.inbox = rest ∧ t.rsps = s.rsps ++ [rsp] ∧ rsp.extractLsb' 24 4 = 0 ∧
      ((statusOf rsp = 0) ∨
        (1 ≤ (statusOf rsp).toNat ∧ (statusOf rsp).toNat ≤ 7 ∧ s.err = 0 ∧ t.err = statusOf rsp ∧ t.einfo = dataOf rsp) ∨
        (statusOf rsp = 15 ∧ s.err ≠ 0 ∧ dataOf rsp = s.err.setWidth 24))

/-! ## Reset and the invariant (10_state.md) -/

/-- Reset leaves the registers at the values of R34. That REF, whose "fixed contents" R34 leaves to the parameter, is there
`Config.ref` is the model's choice (log 1), and so is that the arrays, which R34 leaves unspecified, list nothing and read as free
values (log 2, log 3). -/
def Obligations.ResetRegisterValues : Prop :=
  State.reset.mode.bits = 0 ∧ State.reset.width = 0 ∧ State.reset.height = 0 ∧ State.reset.ptr = 0 ∧ State.reset.plen = 0 ∧
    State.reset.olen = 0 ∧ State.reset.err = 0 ∧ State.reset.einfo = 0 ∧ State.reset.ref = Config.ref ∧
    ∀ k, State.reset.pix.read k = none ∧ State.reset.pal.read k = none ∧ State.reset.idx.read k = none ∧
      State.reset.out.read k = none

/-- The invariant of Safety.lean holds after reset. That REF is well-formed there rests on log 1 (REF is a parameter of which
W1 to W3 are assumed, R21), and that the arrays list nothing there on log 2 and log 3. -/
def Obligations.ResetStateHasTheInvariant : Prop := State.reset.Inv

/-- Every step keeps the invariant: REF well-formed, dimensions 0..24 and configured together, the arrays canonical, the
palette of valid hardware bytes and within its length, ERR a cause, FAULTED without readable results (R21, R24, R26 with P1,
R27, R28, R29, R30, R212). That PAL and OUT list nothing beyond PLEN and OLEN is the model's choice for what the rules call
unspecified (log 3). -/
def Obligations.EveryStepKeepsTheInvariant : Prop :=
  ∀ s t : State, s.Inv → step s = .next t → t.Inv

/-- No step writes REF: neither a command, nor an illegal word, nor the reset (R21, R230). -/
def Obligations.NoStepWritesRef : Prop :=
  ∀ s t : State, step s = .next t → t.ref = s.ref

/-- Which commands write what (R23, R24, R26 to R30): MODE only SETMODE, the dimensions only SETDIM, PIX only WRPIX, IDX only
WRIDX, QUANT and CONVERT; PAL and PLEN only the builders, the clearing commands and a trap; OUT and OLEN only the packers,
CLRERR and a trap; ERR and EINFO only a trap and CLRERR. A trap is taken from READY and leaves FAULTED: a word rejected in FAULTED
writes none of these. -/
def Obligations.OnlyTheNamedCommandsWrite : Prop :=
  ∀ (i : Instr) (s t : State), exec i s = .next t →
    (t.mode ≠ s.mode → ∃ m, i = .setmode m) ∧
    ((t.width ≠ s.width ∨ t.height ≠ s.height) → ∃ w h, i = .setdim w h) ∧
    ((∃ k, pixAt t k ≠ pixAt s k) → ∃ c, i = .wrpix c) ∧
    ((∃ k, idxAt t k ≠ idxAt s k) → (∃ v, i = .wridx v) ∨ i = .quant ∨ i = .convert) ∧
    ((t.plen ≠ s.plen ∨ ∃ j, palAt t j ≠ palAt s j) →
      i = .buildpal ∨ i = .convert ∨ (∃ b, i = .pushpal b) ∨ i = .clrpal ∨ i = .clrerr ∨ (s.err = 0 ∧ t.err ≠ 0)) ∧
    ((t.olen ≠ s.olen ∨ ∃ j, outAt t j ≠ outAt s j) →
      i = .pack ∨ i = .convert ∨ i = .clrerr ∨ (s.err = 0 ∧ t.err ≠ 0)) ∧
    ((t.err ≠ s.err ∨ t.einfo ≠ s.einfo) →
      i = .clrerr ∨ (s.err = 0 ∧ ∃ cause ∈ mayRaise i, t.err = cause.code))

/-- PTR is written only by SETPTR and, by one, by the five pointer commands; their increment never wraps, and the largest value
it produces from a state with OLEN in 0..288 is 576 (R25, 70_reset_and_hazards.md R235). -/
def Obligations.PointerMovesOnlyByItsCommands : Prop :=
  ∀ (i : Instr) (s t : State), s.olen.toNat ≤ Config.nOut → exec i s = .next t → t.ptr ≠ s.ptr →
    i = .setptr t.ptr ∨
      (((∃ c, i = .wrpix c) ∨ (∃ v, i = .wridx v) ∨ i = .rdpix ∨ i = .rdidx ∨ i = .rdout) ∧
        t.ptr.toNat = s.ptr.toNat + 1 ∧ t.ptr.toNat ≤ 576 ∧ t.err = 0)

/-! ## Traps (60_exceptions.md) -/

/-- Traps are precise: a command that makes the block FAULTED does exactly what the trap entry says, and nothing else (R212). -/
def Obligations.TrapsArePrecise : Prop :=
  ∀ (i : Instr) (s t : State), Ready s → exec i s = .next t → t.err ≠ 0 →
    ∃ cause ∈ mayRaise i, ∃ info, Trapped cause info s t

/-- While FAULTED every word but NOP, RDREG of an existing register and CLRERR is rejected, illegal words too: no state changes
and the response is status 15 with ERR; those three respond with status 0, and ERR and EINFO keep the trap's values until CLRERR
(or reset) (R213, with RDREG's reserved numbers as 30_encoding.md R79 has them). -/
def Obligations.FaultedAcceptsThreeCommandsOnly : Prop :=
  ∀ (s : State) (cmd : Word) (rest : List HostEvent), s.inbox = .command cmd :: rest → s.err ≠ 0 →
    ((∀ i, decode cmd = .ok i → acceptedInFaulted i = false) →
      ∃ t, step s = .next t ∧ Rejected { s with inbox := rest } t) ∧
    ∀ i, decode cmd = .ok i → acceptedInFaulted i = true →
      ∃ t data, step s = .next t ∧ Responds statusOk data { s with inbox := rest } t ∧
        (i ≠ .clrerr → t.err = s.err ∧ t.einfo = s.einfo)

/-- Traps do not nest: from FAULTED a step leaves ERR and EINFO as they are, unless it is CLRERR or the reset, which leave
READY (R213, R215). -/
def Obligations.TrapsDoNotNest : Prop :=
  ∀ s t : State, s.err ≠ 0 → step s = .next t →
    (t.err = s.err ∧ t.einfo = s.einfo) ∨
      (t.err = 0 ∧ t.einfo = 0 ∧ ∃ rest, s.inbox = .command 0x3F000000 :: rest ∨ s.inbox = .reset :: rest)

/-- CLRERR, in every state: ERR, EINFO, PLEN and OLEN become 0, everything else but the contents of PAL and OUT stays (R103). -/
def Obligations.ClrerrClearsErrorAndResults : Prop :=
  encode .clrerr = 0x3F000000 ∧
    ∀ s : State, Completes .clrerr s 0 fun t =>
      t.err = 0 ∧ t.einfo = 0 ∧ t.plen = 0 ∧ t.olen = 0 ∧ OnlyChanges [.err, .einfo, .plen, .olen, .pal, .out] s t

/-- After a trap and CLRERR the block is READY, no result can be read, and PIX, IDX, MODE, WIDTH, HEIGHT and PTR are as the
failed command found them (R214). -/
def Obligations.TrapThenClrerrKeepsTheInputs : Prop :=
  ∀ (i : Instr) (s t : State), Ready s → exec i s = .next t → t.err ≠ 0 →
    ∃ u, exec .clrerr t = .next u ∧ u.err = 0 ∧ u.einfo = 0 ∧ u.plen = 0 ∧ u.olen = 0 ∧
      OnlyChanges [.err, .einfo, .plen, .olen, .pal, .out] s u

/-- DimensionError: SETDIM with a side outside 1..24; BUILDPAL, QUANT, PACK and CONVERT while no dimensions are configured;
PACK and CONVERT with a width that is no multiple of `ppb(MODE)` (R202). -/
def Obligations.DimensionErrorConditions : Prop :=
  ∀ s : State, Ready s →
    (∀ w h : BitVec 8, (w.toNat < 1 ∨ 24 < w.toNat ∨ h.toNat < 1 ∨ 24 < h.toNat) →
      Traps (.setdim w h) s .dimensionError ((h.setWidth 24 <<< 8) ||| w.setWidth 24)) ∧
    ((s.width = 0 ∨ s.height = 0) →
      ∀ i ∈ [Instr.buildpal, .quant, .pack, .convert],
        Traps i s .dimensionError ((s.height.setWidth 24 <<< 8) ||| s.width.setWidth 24)) ∧
    (s.width.toNat % s.mode.ppb ≠ 0 →
      ∀ i ∈ [Instr.pack, .convert],
        Traps i s .dimensionError ((s.height.setWidth 24 <<< 8) ||| s.width.setWidth 24))

/-- UnsupportedColor: BUILDPAL and CONVERT report the colour of the first pixel, in row-major order, that is no reference
colour; QUANT, QUANT1 and WRPIX never raise it (R201). -/
def Obligations.UnsupportedColorReportsTheFirstPixel : Prop :=
  ∀ s : State, Ready s →
    (∀ k, k < pixelCount s → ¬ IsReferenceColour s.ref (pixAt s k) →
      (∀ j, j < k → IsReferenceColour s.ref (pixAt s j)) →
      Traps .buildpal s .unsupportedColor (pixAt s k) ∧
        (s.width.toNat % s.mode.ppb = 0 → Traps .convert s .unsupportedColor (pixAt s k))) ∧
    ∀ (c : ColourWord) (t : State),
      exec .quant s = .next t ∨ exec (.quant1 c) s = .next t ∨ exec (.wrpix c) s = .next t →
      t.err ≠ Cause.unsupportedColor.code

/-! ## Configuration, data movement, status (40_config_and_data.md) -/

/-- NOP responds 0 in every state and changes nothing; `0x00xxxxxx` with an operand bit set is an illegal word, which traps
IllegalCommand in READY and is rejected in FAULTED (R90). -/
def Obligations.NopRespondsAndChangesNothing : Prop :=
  encode .nop = 0x00000000 ∧ (∀ s : State, Completes .nop s 0 (OnlyChanges [] s)) ∧
    ∀ (a : BitVec 24) (s : State) (rest : List HostEvent), a ≠ 0 → s.inbox = .command (a.setWidth 32) :: rest →
      ∃ t, step s = .next t ∧ (s.err = 0 → Trapped .illegalCommand 0 { s with inbox := rest } t) ∧
        (s.err ≠ 0 → Rejected { s with inbox := rest } t)

/-- SETMODE writes MODE only; `m = 3` raises IllegalOperand (R91). -/
def Obligations.SetmodeWritesModeOnly : Prop :=
  ∀ (m : BitVec 2) (s : State), Ready s →
    encode (.setmode m) = 0x01000000 ||| m.setWidth 32 ∧
    (m ≠ 3 → Completes (.setmode m) s 0 fun t => t.mode.bits = m ∧ OnlyChanges [.mode] s t) ∧
    (m = 3 → Traps (.setmode m) s .illegalOperand 3)

/-- SETDIM writes WIDTH and HEIGHT only, both at once; a side outside 1..24 raises DimensionError with `cmd[23:0]` (R92). -/
def Obligations.SetdimWritesBothDimensions : Prop :=
  ∀ (w h : BitVec 8) (s : State), Ready s →
    encode (.setdim w h) = 0x02000000 ||| (h.setWidth 32 <<< 8) ||| w.setWidth 32 ∧
    ((1 ≤ w.toNat ∧ w.toNat ≤ 24 ∧ 1 ≤ h.toNat ∧ h.toNat ≤ 24) →
      Completes (.setdim w h) s 0 fun t =>
        t.width.toNat = w.toNat ∧ t.height.toNat = h.toNat ∧ OnlyChanges [.width, .height] s t) ∧
    ((w.toNat < 1 ∨ 24 < w.toNat ∨ h.toNat < 1 ∨ 24 < h.toNat) →
      Traps (.setdim w h) s .dimensionError ((h.setWidth 24 <<< 8) ||| w.setWidth 24))

/-- SETPTR writes PTR only; every 10-bit value is accepted (R93). -/
def Obligations.SetptrWritesPointerOnly : Prop :=
  ∀ (p : BitVec 10) (s : State), Ready s →
    encode (.setptr p) = 0x03000000 ||| p.setWidth 32 ∧
    Completes (.setptr p) s 0 fun t => t.ptr = p ∧ OnlyChanges [.ptr] s t

/-- CLRPAL sets PLEN to 0; the contents of PAL become unobservable: every RDPAL then traps; nothing else changes (R94). -/
def Obligations.ClrpalEmptiesThePalette : Prop :=
  encode .clrpal = 0x04000000 ∧
    ∀ s : State, Ready s → Completes .clrpal s 0 fun t =>
      t.plen = 0 ∧ OnlyChanges [.plen, .pal] s t ∧ ∀ i : Nibble, Traps (.rdpal i) t .pointerRange (i.setWidth 24)

/-- WRPIX stores the colour word at PTR and advances PTR by one; every other entry and every other piece of state stays;
`PTR > 575` raises PointerRange and nothing is written (R95). -/
def Obligations.WrpixStoresOnePixel : Prop :=
  ∀ (c : ColourWord) (s : State), Ready s →
    encode (.wrpix c) = 0x10000000 ||| c.setWidth 32 ∧
    (s.ptr.toNat ≤ 575 → Completes (.wrpix c) s 0 fun t =>
      pixAt t s.ptr.toNat = c ∧ (∀ k, k ≠ s.ptr.toNat → pixAt t k = pixAt s k) ∧
        t.ptr.toNat = s.ptr.toNat + 1 ∧ OnlyChanges [.pix, .ptr] s t) ∧
    (575 < s.ptr.toNat → Traps (.wrpix c) s .pointerRange (s.ptr.setWidth 24))

/-- PUSHPAL appends a hardware byte of REF to the palette; a byte that is none raises IllegalOperand first, a full palette
then raises PaletteRange (R96). -/
def Obligations.PushpalAppendsOneEntry : Prop :=
  ∀ (b : Byte) (s : State), Ready s →
    encode (.pushpal b) = 0x11000000 ||| b.setWidth 32 ∧
    (¬ IsHardwareByte s.ref b → Traps (.pushpal b) s .illegalOperand (b.setWidth 24)) ∧
    (IsHardwareByte s.ref b → s.plen = 16 → Traps (.pushpal b) s .paletteRange 16) ∧
    (IsHardwareByte s.ref b → s.plen.toNat < 16 → Completes (.pushpal b) s 0 fun t =>
      palAt t s.plen.toNat = b ∧ (∀ i, i ≠ s.plen.toNat → palAt t i = palAt s i) ∧
        t.plen.toNat = s.plen.toNat + 1 ∧ OnlyChanges [.pal, .plen] s t)

/-- WRIDX stores the index at PTR and advances PTR by one; every other entry and every other piece of state stays;
`PTR > 575` raises PointerRange and nothing is written (R97). -/
def Obligations.WridxStoresOneIndex : Prop :=
  ∀ (v : Nibble) (s : State), Ready s →
    encode (.wridx v) = 0x12000000 ||| v.setWidth 32 ∧
    (s.ptr.toNat ≤ 575 → Completes (.wridx v) s 0 fun t =>
      idxAt t s.ptr.toNat = v ∧ (∀ k, k ≠ s.ptr.toNat → idxAt t k = idxAt s k) ∧
        t.ptr.toNat = s.ptr.toNat + 1 ∧ OnlyChanges [.idx, .ptr] s t) ∧
    (575 < s.ptr.toNat → Traps (.wridx v) s .pointerRange (s.ptr.setWidth 24))

/-- RDPIX responds with the entry at PTR and advances PTR by one; `PTR > 575` raises PointerRange (R98). -/
def Obligations.RdpixReturnsThePixel : Prop :=
  encode .rdpix = 0x18000000 ∧
    ∀ s : State, Ready s →
      (s.ptr.toNat ≤ 575 → Completes .rdpix s (pixAt s s.ptr.toNat) fun t =>
        t.ptr.toNat = s.ptr.toNat + 1 ∧ OnlyChanges [.ptr] s t) ∧
      (575 < s.ptr.toNat → Traps .rdpix s .pointerRange (s.ptr.setWidth 24))

/-- RDPAL responds with the palette entry and changes no state; an index at or beyond PLEN raises PointerRange (R99). -/
def Obligations.RdpalReturnsTheEntry : Prop :=
  ∀ (i : Nibble) (s : State), Ready s →
    encode (.rdpal i) = 0x19000000 ||| i.setWidth 32 ∧
    (i.toNat < s.plen.toNat → Completes (.rdpal i) s ((palAt s i.toNat).setWidth 24) (OnlyChanges [] s)) ∧
    (s.plen.toNat ≤ i.toNat → Traps (.rdpal i) s .pointerRange (i.setWidth 24))

/-- RDIDX responds with the index at PTR and advances PTR by one; `PTR > 575` raises PointerRange (R100). -/
def Obligations.RdidxReturnsTheIndex : Prop :=
  encode .rdidx = 0x1A000000 ∧
    ∀ s : State, Ready s →
      (s.ptr.toNat ≤ 575 → Completes .rdidx s ((idxAt s s.ptr.toNat).setWidth 24) fun t =>
        t.ptr.toNat = s.ptr.toNat + 1 ∧ OnlyChanges [.ptr] s t) ∧
      (575 < s.ptr.toNat → Traps .rdidx s .pointerRange (s.ptr.setWidth 24))

/-- RDOUT responds with the packed byte at PTR and advances PTR by one; PTR at or beyond OLEN raises PointerRange (R101). -/
def Obligations.RdoutReturnsThePackedByte : Prop :=
  encode .rdout = 0x1B000000 ∧
    ∀ s : State, Ready s →
      (s.ptr.toNat < s.olen.toNat → Completes .rdout s ((outAt s s.ptr.toNat).setWidth 24) fun t =>
        t.ptr.toNat = s.ptr.toNat + 1 ∧ OnlyChanges [.ptr] s t) ∧
      (s.olen.toNat ≤ s.ptr.toNat → Traps .rdout s .pointerRange (s.ptr.setWidth 24))

/-- RDREG responds, in READY and in FAULTED, with the register's data word and changes no state; a number above 6 raises
IllegalOperand in READY and is rejected in FAULTED (R102, with the words of 10_state.md R31). -/
def Obligations.RdregReturnsTheRegisterWord : Prop :=
  ∀ s : State,
    Completes (.rdreg 0) s (s.mode.bits.setWidth 24) (OnlyChanges [] s) ∧
    Completes (.rdreg 1) s ((s.height.setWidth 24 <<< 8) ||| s.width.setWidth 24) (OnlyChanges [] s) ∧
    Completes (.rdreg 2) s (s.ptr.setWidth 24) (OnlyChanges [] s) ∧
    Completes (.rdreg 3) s (s.plen.setWidth 24) (OnlyChanges [] s) ∧
    Completes (.rdreg 4) s (s.olen.setWidth 24) (OnlyChanges [] s) ∧
    Completes (.rdreg 5) s (s.err.setWidth 24) (OnlyChanges [] s) ∧
    Completes (.rdreg 6) s s.einfo (OnlyChanges [] s) ∧
    ∀ r : Nibble, encode (.rdreg r) = 0x1C000000 ||| r.setWidth 32 ∧
      (6 < r.toNat → s.err = 0 → Traps (.rdreg r) s .illegalOperand (r.setWidth 24)) ∧
      (6 < r.toNat → s.err ≠ 0 → ∃ t, exec (.rdreg r) s = .next t ∧ Rejected s t)

/-- A stream of WRPIX loads its colour words in order from the entry PTR on, one entry each; every command responds 0, every
other entry and every other piece of state stays, PTR ends behind the last entry (R95, 70_reset_and_hazards.md R231). -/
def Obligations.WrpixStreamLoadsTheImageInOrder : Prop :=
  ∀ (cs : List ColourWord) (s : State), Ready s → s.ptr.toNat + cs.length ≤ 576 →
    ∃ t, execAll (cs.map Instr.wrpix) s = .next t ∧
      (∀ k c, cs[k]? = some c → pixAt t (s.ptr.toNat + k) = c) ∧
      (∀ k, k < s.ptr.toNat ∨ s.ptr.toNat + cs.length ≤ k → pixAt t k = pixAt s k) ∧
      t.ptr.toNat = s.ptr.toNat + cs.length ∧ OnlyChanges [.pix, .ptr] s t ∧
      t.rsps = s.rsps ++ List.replicate cs.length 0

/-- From `PTR = 0`, `OLEN` RDOUT commands return the whole packed image in order, and change PTR only; one more traps PointerRange
(R101, R29). -/
def Obligations.RdoutStreamReturnsTheWholeImage : Prop :=
  ∀ s : State, Ready s → s.ptr = 0 →
    ∃ t, execAll (List.replicate s.olen.toNat Instr.rdout) s = .next t ∧
      t.rsps = s.rsps ++ (List.range s.olen.toNat).map (fun j => (outAt s j).setWidth 32) ∧
      t.ptr.toNat = s.olen.toNat ∧ OnlyChanges [.ptr] s t ∧ Traps .rdout t .pointerRange (s.olen.setWidth 24)

/-! ## The palette builder (41_palette_builder.md) -/

/-- BUILDPAL on an image of reference colours: the used colours ranked by count and, on ties, by descending firmware index, cut
to the mode's capacity, as hardware bytes; at least one entry, pairwise different; nothing but PAL and PLEN is written, and the
response is the new PLEN (R122, R123, R124). -/
def Obligations.BuildpalRanksTheUsedColours : Prop :=
  ∀ s : State, Ready s → Configured s → s.ref.WellFormed → AllReference s →
    ∃ t, exec .buildpal s = .next t ∧ Responds statusOk (t.plen.setWidth 24) s t ∧ PaletteIsRanked s t ∧
      1 ≤ t.plen.toNat ∧ t.plen.toNat ≤ s.mode.cpm ∧
      (∀ i j, i < j → j < t.plen.toNat → palAt t i ≠ palAt t j) ∧ OnlyChanges [.pal, .plen] s t

/-- The counts of the scan: after it, `CNT[f]` is the number of pixels of colour `f`, and the counts add up to `n` (R120). -/
def Obligations.ScanCountsTheReferenceColours : Prop :=
  ∀ (ref : RefTable) (cs : List ColourWord), ref.WellFormed → (∀ c ∈ cs, IsReferenceColour ref c) →
    ∃ cnt, scanCounts ref cs zeroCounts = .ok cnt ∧ (∀ f : FwIndex, cnt[f] = cs.count (rgbOf ref f)) ∧
      ((List.finRange 27).map fun f => cnt[f]).sum = cs.length

/-- Two images of the same mode whose pixels are a permutation of each other (the same pixels, in particular) give the same
palette, or both fail (R125). -/
def Obligations.PaletteDoesNotDependOnPixelOrder : Prop :=
  ∀ s s' t t' : State, Ready s → Ready s' → Configured s → Configured s' → s'.ref = s.ref → s'.mode = s.mode →
    (pixels s').Perm (pixels s) → exec .buildpal s = .next t → exec .buildpal s' = .next t' →
    t'.err = t.err ∧ t'.plen = t.plen ∧ ∀ i, i < t.plen.toNat → palAt t' i = palAt t i

/-- Palette overflow is not an error: with more used colours than the mode holds, BUILDPAL succeeds with a full palette (R126,
60_exceptions.md R208). -/
def Obligations.PaletteOverflowIsNoError : Prop :=
  ∀ (s : State) (used : List FwIndex), Ready s → Configured s → s.ref.WellFormed → AllReference s → used.Nodup →
    (∀ f ∈ used, 0 < occurrences s f) → s.mode.cpm < used.length →
    ∃ t, exec .buildpal s = .next t ∧ t.err = 0 ∧ t.plen.toNat = s.mode.cpm

/-! ## The quantizer (42_quantizer.md) -/

/-- The distance is the sum of the absolute channel differences, 0..765, 0 exactly on equal words, symmetric (R135). -/
def Obligations.DistIsTheManhattanDistance : Prop :=
  ∀ a b : ColourWord,
    (colourDist a b : Int) =
      |((a.extractLsb' 16 8).toNat : Int) - (b.extractLsb' 16 8).toNat| +
        |((a.extractLsb' 8 8).toNat : Int) - (b.extractLsb' 8 8).toNat| +
        |((a.extractLsb' 0 8).toNat : Int) - (b.extractLsb' 0 8).toNat| ∧
    colourDist a b ≤ 765 ∧ (colourDist a b = 0 ↔ a = b) ∧ colourDist a b = colourDist b a

/-- `nearest` is the least position of least distance, and a position of the list (R136). -/
def Obligations.NearestIsTheLowestNearestPosition : Prop :=
  ∀ (p : ColourWord) (l : List ColourWord), l ≠ [] →
    ∃ c, l[nearest p l]? = some c ∧ (∀ (j : Nat) (d : ColourWord), l[j]? = some d → colourDist p c ≤ colourDist p d) ∧
      ∀ (j : Nat) (d : ColourWord), j < nearest p l → l[j]? = some d → colourDist p c < colourDist p d

/-- QUANT: DimensionError when no dimensions are configured, then PaletteRange for an unusable palette; otherwise every pixel's
index is that of the nearest palette colour, entries at `n` and beyond stay, and nothing but IDX is written (R138). -/
def Obligations.QuantWritesNearestIndices : Prop :=
  encode .quant = 0x21000000 ∧
    ∀ s : State, Ready s →
      (¬ Configured s → Traps .quant s .dimensionError ((s.height.setWidth 24 <<< 8) ||| s.width.setWidth 24)) ∧
      (Configured s → ¬ PaletteUsable s → Traps .quant s .paletteRange (s.plen.setWidth 24)) ∧
      (Configured s → PaletteUsable s → Completes .quant s 0 fun t =>
        (∀ k, k < pixelCount s → (idxAt t k).toNat = nearest (pixAt s k) (palRgb s)) ∧
          (∀ k, pixelCount s ≤ k → idxAt t k = idxAt s k) ∧ OnlyChanges [.idx] s t)

/-- QUANT1: PaletteRange for an unusable palette; otherwise responds with the index of the nearest palette colour and changes no
state (R139). -/
def Obligations.Quant1ReturnsTheNearestIndex : Prop :=
  ∀ (c : ColourWord) (s : State), Ready s →
    encode (.quant1 c) = 0x22000000 ||| c.setWidth 32 ∧
    (¬ PaletteUsable s → Traps (.quant1 c) s .paletteRange (s.plen.setWidth 24)) ∧
    (PaletteUsable s →
      Completes (.quant1 c) s (BitVec.ofNat 24 (nearest c (palRgb s))) (OnlyChanges [] s) ∧ nearest c (palRgb s) < 16)

/-- After a successful QUANT every index of the image is below PLEN, and PLEN is within the mode (R140). -/
def Obligations.QuantIndicesAreWithinThePalette : Prop :=
  ∀ s t : State, Ready s → exec .quant s = .next t → t.err = 0 →
    t.plen.toNat ≤ t.mode.cpm ∧ ∀ k, k < pixelCount t → (idxAt t k).toNat < t.plen.toNat

/-- A pixel whose colour is in the palette gets the lowest index that holds the colour (R141). -/
def Obligations.QuantGivesExactColoursTheirIndex : Prop :=
  ∀ (s t : State) (k i : Nat), Ready s → exec .quant s = .next t → t.err = 0 → k < pixelCount s →
    (palRgb s)[i]? = some (pixAt s k) → (∀ j, j < i → (palRgb s)[j]? ≠ some (pixAt s k)) → (idxAt t k).toNat = i

/-! ## The bit packer (43_bit_packer.md) -/

/-- The destination bits of the three layouts, accumulated by OR (R151, R152, R153, R154). Mode 2: index bit 0 of slot `s` is
byte bit `7 - s`. Mode 1: index bit 0 is byte bit `3 - s`, index bit 1 is byte bit `7 - s`. Mode 0: index bits 0, 1, 2, 3 are byte
bits `7 - s`, `3 - s`, `5 - s`, `1 - s`. -/
def Obligations.PackedByteLayouts : Prop :=
  ∀ (vs : List Nibble) (slot : Nat) (v : Nibble), vs[slot]? = some v →
    (vs.length = 8 → (packByte .mode2 vs).getLsbD (7 - slot) = v.getLsbD 0) ∧
    (vs.length = 4 → (packByte .mode1 vs).getLsbD (3 - slot) = v.getLsbD 0 ∧
      (packByte .mode1 vs).getLsbD (7 - slot) = v.getLsbD 1) ∧
    (vs.length = 2 → (packByte .mode0 vs).getLsbD (7 - slot) = v.getLsbD 0 ∧
      (packByte .mode0 vs).getLsbD (3 - slot) = v.getLsbD 1 ∧ (packByte .mode0 vs).getLsbD (5 - slot) = v.getLsbD 2 ∧
      (packByte .mode0 vs).getLsbD (1 - slot) = v.getLsbD 3)

/-- Round trip, both ways, in every mode: unpacking a packed list of in-range indices gives the list, packing an unpacked byte
gives the byte (R157). -/
def Obligations.PackingIsInvertible : Prop :=
  ∀ m : ScreenMode,
    (∀ (vs : List Nibble) (slot : Nat) (v : Nibble), vs.length = m.ppb → (∀ u ∈ vs, u.toNat < m.cpm) → vs[slot]? = some v →
      unpackSlot m (packByte m vs) slot = v) ∧
    ∀ b : Byte, packByte m ((List.range m.ppb).map (unpackSlot m b)) = b

/-- PACK: DimensionError when the size cannot be packed, then IndexRange for the lowest index out of range; otherwise byte `j`
packs the indices of group `j`, OLEN is `n div ppb`, the response is the new OLEN, and nothing but OUT and OLEN is written (R155). -/
def Obligations.PackWritesThePackedBytes : Prop :=
  encode .pack = 0x23000000 ∧
    ∀ s : State, Ready s →
      (¬ PackableSize s → Traps .pack s .dimensionError ((s.height.setWidth 24 <<< 8) ||| s.width.setWidth 24)) ∧
      (∀ k, PackableSize s → k < pixelCount s → s.mode.cpm ≤ (idxAt s k).toNat →
        (∀ j, j < k → (idxAt s j).toNat < s.mode.cpm) →
        Traps .pack s .indexRange (((idxAt s k).setWidth 24 <<< 16) ||| BitVec.ofNat 24 k)) ∧
      (PackableSize s → (∀ k, k < pixelCount s → (idxAt s k).toNat < s.mode.cpm) →
        Completes .pack s (BitVec.ofNat 24 (pixelCount s / s.mode.ppb)) fun t =>
          t.olen.toNat = pixelCount s / s.mode.ppb ∧
            (∀ j, j < pixelCount s / s.mode.ppb →
              outAt t j = packByte s.mode ((List.range s.mode.ppb).map fun slot => idxAt s (j * s.mode.ppb + slot))) ∧
            OnlyChanges [.out, .olen] s t)

/-- The packed length is exact: after a successful PACK, `OLEN * ppb(MODE) = WIDTH * HEIGHT`, each row of the image takes
`WIDTH div ppb(MODE)` bytes, and the length is 1..288 (R156). -/
def Obligations.PackedLengthIsExact : Prop :=
  ∀ s t : State, s.Inv → Ready s → exec .pack s = .next t → t.err = 0 →
    t.olen.toNat * t.mode.ppb = t.width.toNat * t.height.toNat ∧
      t.olen.toNat = t.height.toNat * (t.width.toNat / t.mode.ppb) ∧ 1 ≤ t.olen.toNat ∧ t.olen.toNat ≤ 288

/-! ## The whole conversion (44_convert.md) -/

/-- A successful CONVERT has exactly the effect of BUILDPAL, then QUANT, then PACK, each succeeding, but for the responses: the
end states are equal data (R170). -/
def Obligations.ConvertIsBuildpalThenQuantThenPack : Prop :=
  ∀ s t : State, Ready s → exec .convert s = .next t → t.err = 0 →
    ∃ t1 t2 t3, exec .buildpal s = .next t1 ∧ t1.err = 0 ∧ exec .quant t1 = .next t2 ∧ t2.err = 0 ∧
      exec .pack t2 = .next t3 ∧ t3.err = 0 ∧ t = { t3 with rsps := s.rsps ++ [t.olen.setWidth 32] }

/-- CONVERT succeeds on a packable image of reference colours, and then: the palette is the ranked one, of 1..cpm valid and
pairwise different hardware bytes; every index is below PLEN; OLEN is exact; a pixel whose colour is in the palette has that
colour's index; unpacking OUT gives back the indices; IDX at `n` and beyond and everything else stays (R170, R173). -/
def Obligations.ConvertEstablishesTheInvariants : Prop :=
  ∀ s : State, Ready s → PackableSize s → s.ref.WellFormed → AllReference s →
    Completes .convert s (BitVec.ofNat 24 (pixelCount s / s.mode.ppb)) fun t =>
      (1 ≤ t.plen.toNat ∧ t.plen.toNat ≤ t.mode.cpm) ∧
      (∀ k, k < pixelCount t → (idxAt t k).toNat < t.plen.toNat) ∧
      t.olen.toNat * t.mode.ppb = pixelCount t ∧
      (PaletteIsRanked s t ∧ (∀ i j, i < j → j < t.plen.toNat → palAt t i ≠ palAt t j) ∧
        ∀ i, i < t.plen.toNat → IsHardwareByte t.ref (palAt t i)) ∧
      (∀ k i f, k < pixelCount t → i < t.plen.toNat → hwOf t.ref f = palAt t i → pixAt t k = rgbOf t.ref f →
        (idxAt t k).toNat = i) ∧
      (∀ k, k < pixelCount t → unpackSlot t.mode (outAt t (k / t.mode.ppb)) (k % t.mode.ppb) = idxAt t k) ∧
      (∀ k, pixelCount s ≤ k → idxAt t k = idxAt s k) ∧
      OnlyChanges [.pal, .plen, .idx, .out, .olen] s t

/-- CONVERT's results, or its trap's cause and info, and its response are a function of PIX, MODE, WIDTH, HEIGHT and REF only
(R172). -/
def Obligations.ConvertDependsOnItsInputsOnly : Prop :=
  ∀ s s' t t' : State, Ready s → Ready s' → SameImage s s' → exec .convert s = .next t → exec .convert s' = .next t' →
    t'.err = t.err ∧ (t.err ≠ 0 → t'.einfo = t.einfo) ∧ SameResults t t' ∧
      (t.err = 0 → ∀ k, k < pixelCount s → idxAt t' k = idxAt t k) ∧
      ∃ rsp, t.rsps = s.rsps ++ [rsp] ∧ t'.rsps = s'.rsps ++ [rsp]

/-- Converting the same image twice gives the same results: a second CONVERT after a successful one changes nothing that can be
read: no palette entry below PLEN, no packed byte below OLEN, no entry of IDX (at `n` and beyond included) and no register; only
the unobservable entries of PAL and OUT beyond their lengths are left open (00_scope.md R10). -/
def Obligations.ConvertTwiceIsConvertOnce : Prop :=
  ∀ s t u : State, Ready s → exec .convert s = .next t → t.err = 0 → exec .convert t = .next u →
    u.err = 0 ∧ SameResults t u ∧ (∀ k, idxAt u k = idxAt t k) ∧ OnlyChanges [.pal, .out] t u

/-- All or nothing: CONVERT either succeeds, or takes the trap of a bad size or an unsupported colour with nothing written; then
no palette entry and no packed byte can be read, neither while FAULTED nor after CLRERR (R171). -/
def Obligations.FailedConvertLeavesNothingReadable : Prop :=
  ∀ s t : State, Ready s → exec .convert s = .next t → t.err ≠ 0 →
    (∃ info, Trapped .dimensionError info s t ∨ Trapped .unsupportedColor info s t) ∧
    (∀ i ∈ [Instr.rdout, .rdpix, .rdidx], ∃ u, exec i t = .next u ∧ Rejected t u) ∧
    (∀ i : Nibble, ∃ u, exec (.rdpal i) t = .next u ∧ Rejected t u) ∧
    ∃ u, exec .clrerr t = .next u ∧ Traps .rdout u .pointerRange (u.ptr.setWidth 24) ∧
      ∀ i : Nibble, Traps (.rdpal i) u .pointerRange (i.setWidth 24)

/-- An image of one reference colour: the palette is that colour alone, every index and every packed byte is 0, and the length
is exact (R170 corner case (a), 95_test_vectors.md EX2). -/
def Obligations.ConvertOfOneColour : Prop :=
  ∀ (s : State) (f : FwIndex), Ready s → PackableSize s → s.ref.WellFormed →
    (∀ k, k < pixelCount s → pixAt s k = rgbOf s.ref f) →
    Completes .convert s (BitVec.ofNat 24 (pixelCount s / s.mode.ppb)) fun t =>
      t.plen = 1 ∧ palAt t 0 = hwOf s.ref f ∧ (∀ k, k < pixelCount s → idxAt t k = 0) ∧
        t.olen.toNat = pixelCount s / s.mode.ppb ∧ ∀ j, j < t.olen.toNat → outAt t j = 0
end

