-- ==== Sys2Proof/Laws/Memory.lean ====
section
/-! SUPPORT. Laws/Memory.lean: what reading gives after a write, and that every memory operation keeps the canonical form. -/

namespace Sys2Proof.Machine

variable {w : Nat}

@[simp] theorem Memory.read_nil (k : Nat) : Memory.read ([] : Memory w) k = none := rfl

@[simp] theorem Memory.read_cons (j : Nat) (u : BitVec w) (m : Memory w) (k : Nat) :
    Memory.read ((j, u) :: m) k = if j = k then some u else Memory.read m k := rfl

/-- Reading an entry after a write to it gives the value written. -/
@[simp] theorem Memory.read_write_same (m : Memory w) (k : Nat) (v : BitVec w) :
    (m.write k v).read k = some v := by
  induction m with
  | nil => simp [Memory.write]
  | cons e m ih =>
    obtain ⟨j, u⟩ := e
    rcases Nat.lt_trichotomy k j with h | h | h
    · simp [Memory.write, h]
    · simp [Memory.write, h]
    · simp [Memory.write, Nat.lt_asymm h, Nat.ne_of_gt h, Nat.ne_of_lt h, ih]

/-- A write leaves every other entry alone. -/
theorem Memory.read_write_other (m : Memory w) {k k' : Nat} (v : BitVec w) (h : k' ≠ k) :
    (m.write k v).read k' = m.read k' := by
  induction m with
  | nil => simp [Memory.write, Ne.symm h]
  | cons e m ih =>
    obtain ⟨j, u⟩ := e
    rcases Nat.lt_trichotomy k j with hk | hk | hk
    · simp [Memory.write, hk, Ne.symm h]
    · subst hk; simp [Memory.write, Ne.symm h]
    · simp [Memory.write, Nat.lt_asymm hk, Nat.ne_of_gt hk, ih]

/-- Reading after a write, both cases. -/
theorem Memory.read_write (m : Memory w) (k k' : Nat) (v : BitVec w) :
    (m.write k v).read k' = if k' = k then some v else m.read k' := by
  split
  · next h => subst h; simp
  · next h => exact Memory.read_write_other m v h

/-- Writing a list of values from `first` on: entry `k` of the range reads the value, every other entry as before. -/
theorem Memory.read_writeAll (m : Memory w) (first : Nat) (vs : List (BitVec w)) (k : Nat) :
    (m.writeAll first vs).read k = if first ≤ k ∧ k < first + vs.length then vs[k - first]? else m.read k := by
  induction vs generalizing m first with
  | nil => simp [Memory.writeAll]
  | cons v vs ih =>
    simp only [Memory.writeAll, ih, Memory.read_write, List.length_cons]
    rcases Nat.lt_trichotomy k first with h | h | h
    · simp [Nat.not_le_of_lt h, Nat.ne_of_lt h, Nat.not_le_of_lt (Nat.lt_succ_of_lt h)]
    · subst h; simp
    · have hk : k - first = (k - (first + 1)) + 1 := by omega
      by_cases h2 : k < first + 1 + vs.length
      · rw [if_pos ⟨h, h2⟩, if_pos ⟨Nat.le_of_lt h, by omega⟩, hk, List.getElem?_cons_succ]
      · rw [if_neg (by omega), if_neg (by omega), if_neg (by omega)]

/-- The array made of a list: entry `k` of the range reads the value, nothing else is listed. -/
theorem Memory.read_ofListFrom (first : Nat) (vs : List (BitVec w)) (k : Nat) :
    (Memory.ofListFrom first vs).read k = if first ≤ k then vs[k - first]? else none := by
  induction vs generalizing first with
  | nil => simp [Memory.ofListFrom]
  | cons v vs ih =>
    simp only [Memory.ofListFrom, Memory.read_cons, ih]
    rcases Nat.lt_trichotomy k first with h | h | h
    · rw [if_neg (by omega), if_neg (by omega), if_neg (by omega)]
    · subst h; simp
    · have hk : k - first = (k - (first + 1)) + 1 := by omega
      rw [if_neg (by omega), if_pos (Nat.succ_le_of_lt h), if_pos (Nat.le_of_lt h), hk, List.getElem?_cons_succ]

@[simp] theorem Memory.read_ofList (vs : List (BitVec w)) (k : Nat) : (Memory.ofList vs).read k = vs[k]? := by
  simp [Memory.ofList, Memory.read_ofListFrom]

/-! ## The canonical form -/

@[simp] theorem Memory.wf_nil (capacity : Nat) : Memory.wf capacity ([] : Memory w) = true := rfl

theorem Memory.wfFrom_mono {capacity capacity' first first' : Nat} {m : Memory w} (h : m.wfFrom capacity first = true)
    (hf : first' ≤ first) (hc : capacity ≤ capacity') : m.wfFrom capacity' first' = true := by
  induction m generalizing first first' with
  | nil => rfl
  | cons e m ih =>
    simp only [Memory.wfFrom, Bool.and_eq_true, decide_eq_true_eq] at h ⊢
    exact ⟨⟨by omega, by omega⟩, ih h.2 (Nat.le_refl _)⟩

/-- A write inside the capacity keeps the canonical form. -/
theorem Memory.wfFrom_write {capacity first k : Nat} {m : Memory w} (v : BitVec w) (h : m.wfFrom capacity first = true)
    (hf : first ≤ k) (hk : k < capacity) : (m.write k v).wfFrom capacity first = true := by
  induction m generalizing first with
  | nil => simp [Memory.write, Memory.wfFrom, hf, hk]
  | cons e m ih =>
    obtain ⟨j, u⟩ := e
    simp only [Memory.wfFrom, Bool.and_eq_true, decide_eq_true_eq] at h
    obtain ⟨⟨h1, h2⟩, h3⟩ := h
    simp only [Memory.write]
    split
    · simp [Memory.wfFrom, hf, hk, h2, h3]; omega
    · split
      · next hj => subst hj; simp [Memory.wfFrom, h1, h2, h3]
      · simp only [Memory.wfFrom, Bool.and_eq_true, decide_eq_true_eq]
        exact ⟨⟨h1, h2⟩, ih h3 (by omega)⟩

/-- A write inside the capacity keeps the canonical form. -/
theorem Memory.wf_write {capacity k : Nat} {m : Memory w} (v : BitVec w) (h : m.wf capacity = true) (hk : k < capacity) :
    (m.write k v).wf capacity = true := Memory.wfFrom_write v h (Nat.zero_le k) hk

/-- Writing a list of values inside the capacity keeps the canonical form. -/
theorem Memory.wf_writeAll {capacity first : Nat} {m : Memory w} (vs : List (BitVec w)) (h : m.wf capacity = true)
    (hc : first + vs.length ≤ capacity) : (m.writeAll first vs).wf capacity = true := by
  induction vs generalizing m first with
  | nil => exact h
  | cons v vs ih =>
    simp only [List.length_cons] at hc
    exact ih (Memory.wf_write v h (by omega)) (by omega)

theorem Memory.wfFrom_ofListFrom {capacity first first' : Nat} (vs : List (BitVec w)) (hf : first' ≤ first)
    (hc : first + vs.length ≤ capacity) : (Memory.ofListFrom first vs).wfFrom capacity first' = true := by
  induction vs generalizing first first' with
  | nil => rfl
  | cons v vs ih =>
    simp only [List.length_cons] at hc
    simp only [Memory.ofListFrom, Memory.wfFrom, Bool.and_eq_true, decide_eq_true_eq]
    exact ⟨⟨hf, by omega⟩, ih (Nat.le_refl _) (by omega)⟩

/-- The array made of a list is in canonical form. -/
theorem Memory.wf_ofList {capacity : Nat} (vs : List (BitVec w)) (hc : vs.length ≤ capacity) :
    (Memory.ofList vs).wf capacity = true := Memory.wfFrom_ofListFrom vs (Nat.le_refl 0) (by omega)

/-- A larger capacity admits every canonical array of a smaller one. -/
theorem Memory.wf_mono {capacity capacity' : Nat} {m : Memory w} (h : m.wf capacity = true) (hc : capacity ≤ capacity') :
    m.wf capacity' = true := Memory.wfFrom_mono h (Nat.le_refl 0) hc

end Sys2Proof.Machine
end

