-- ==== Sys2Proof/Laws/State.lean ====
section
/-! SUPPORT. Laws/State.lean: one lemma per field per named update of the state, each true by rfl, so that no later proof unfolds
a record update; and the same for the reads of the four arrays, where the update leaves them alone. -/

namespace Sys2Proof.Machine

/-! ## writePix -/

@[simp] theorem writePix_ref (s : State) (k : Nat) (c : ColourWord) : (writePix s k c).ref = s.ref := rfl
@[simp] theorem writePix_mode (s : State) (k : Nat) (c : ColourWord) : (writePix s k c).mode = s.mode := rfl
@[simp] theorem writePix_width (s : State) (k : Nat) (c : ColourWord) : (writePix s k c).width = s.width := rfl
@[simp] theorem writePix_height (s : State) (k : Nat) (c : ColourWord) : (writePix s k c).height = s.height := rfl
@[simp] theorem writePix_ptr (s : State) (k : Nat) (c : ColourWord) : (writePix s k c).ptr = s.ptr := rfl
@[simp] theorem writePix_pix (s : State) (k : Nat) (c : ColourWord) : (writePix s k c).pix = s.pix.write k c := rfl
@[simp] theorem writePix_pal (s : State) (k : Nat) (c : ColourWord) : (writePix s k c).pal = s.pal := rfl
@[simp] theorem writePix_plen (s : State) (k : Nat) (c : ColourWord) : (writePix s k c).plen = s.plen := rfl
@[simp] theorem writePix_idx (s : State) (k : Nat) (c : ColourWord) : (writePix s k c).idx = s.idx := rfl
@[simp] theorem writePix_out (s : State) (k : Nat) (c : ColourWord) : (writePix s k c).out = s.out := rfl
@[simp] theorem writePix_olen (s : State) (k : Nat) (c : ColourWord) : (writePix s k c).olen = s.olen := rfl
@[simp] theorem writePix_err (s : State) (k : Nat) (c : ColourWord) : (writePix s k c).err = s.err := rfl
@[simp] theorem writePix_einfo (s : State) (k : Nat) (c : ColourWord) : (writePix s k c).einfo = s.einfo := rfl
@[simp] theorem writePix_epoch (s : State) (k : Nat) (c : ColourWord) : (writePix s k c).epoch = s.epoch := rfl
@[simp] theorem writePix_inbox (s : State) (k : Nat) (c : ColourWord) : (writePix s k c).inbox = s.inbox := rfl
@[simp] theorem writePix_rsps (s : State) (k : Nat) (c : ColourWord) : (writePix s k c).rsps = s.rsps := rfl
@[simp] theorem idxAt_writePix (s : State) (k : Nat) (c : ColourWord) (j : Nat) : idxAt (writePix s k c) j = idxAt s j := rfl
@[simp] theorem palAt_writePix (s : State) (k : Nat) (c : ColourWord) (j : Nat) : palAt (writePix s k c) j = palAt s j := rfl
@[simp] theorem outAt_writePix (s : State) (k : Nat) (c : ColourWord) (j : Nat) : outAt (writePix s k c) j = outAt s j := rfl
@[simp] theorem pixelCount_writePix (s : State) (k : Nat) (c : ColourWord) : pixelCount (writePix s k c) = pixelCount s := rfl

/-! ## writeIdx -/

@[simp] theorem writeIdx_ref (s : State) (k : Nat) (v : Nibble) : (writeIdx s k v).ref = s.ref := rfl
@[simp] theorem writeIdx_mode (s : State) (k : Nat) (v : Nibble) : (writeIdx s k v).mode = s.mode := rfl
@[simp] theorem writeIdx_width (s : State) (k : Nat) (v : Nibble) : (writeIdx s k v).width = s.width := rfl
@[simp] theorem writeIdx_height (s : State) (k : Nat) (v : Nibble) : (writeIdx s k v).height = s.height := rfl
@[simp] theorem writeIdx_ptr (s : State) (k : Nat) (v : Nibble) : (writeIdx s k v).ptr = s.ptr := rfl
@[simp] theorem writeIdx_pix (s : State) (k : Nat) (v : Nibble) : (writeIdx s k v).pix = s.pix := rfl
@[simp] theorem writeIdx_pal (s : State) (k : Nat) (v : Nibble) : (writeIdx s k v).pal = s.pal := rfl
@[simp] theorem writeIdx_plen (s : State) (k : Nat) (v : Nibble) : (writeIdx s k v).plen = s.plen := rfl
@[simp] theorem writeIdx_idx (s : State) (k : Nat) (v : Nibble) : (writeIdx s k v).idx = s.idx.write k v := rfl
@[simp] theorem writeIdx_out (s : State) (k : Nat) (v : Nibble) : (writeIdx s k v).out = s.out := rfl
@[simp] theorem writeIdx_olen (s : State) (k : Nat) (v : Nibble) : (writeIdx s k v).olen = s.olen := rfl
@[simp] theorem writeIdx_err (s : State) (k : Nat) (v : Nibble) : (writeIdx s k v).err = s.err := rfl
@[simp] theorem writeIdx_einfo (s : State) (k : Nat) (v : Nibble) : (writeIdx s k v).einfo = s.einfo := rfl
@[simp] theorem writeIdx_epoch (s : State) (k : Nat) (v : Nibble) : (writeIdx s k v).epoch = s.epoch := rfl
@[simp] theorem writeIdx_inbox (s : State) (k : Nat) (v : Nibble) : (writeIdx s k v).inbox = s.inbox := rfl
@[simp] theorem writeIdx_rsps (s : State) (k : Nat) (v : Nibble) : (writeIdx s k v).rsps = s.rsps := rfl
@[simp] theorem pixAt_writeIdx (s : State) (k : Nat) (v : Nibble) (j : Nat) : pixAt (writeIdx s k v) j = pixAt s j := rfl
@[simp] theorem palAt_writeIdx (s : State) (k : Nat) (v : Nibble) (j : Nat) : palAt (writeIdx s k v) j = palAt s j := rfl
@[simp] theorem outAt_writeIdx (s : State) (k : Nat) (v : Nibble) (j : Nat) : outAt (writeIdx s k v) j = outAt s j := rfl
@[simp] theorem pixelCount_writeIdx (s : State) (k : Nat) (v : Nibble) : pixelCount (writeIdx s k v) = pixelCount s := rfl
@[simp] theorem pixels_writeIdx (s : State) (k : Nat) (v : Nibble) : pixels (writeIdx s k v) = pixels s := rfl

/-! ## advancePtr -/

@[simp] theorem advancePtr_ref (s : State) : (advancePtr s).ref = s.ref := rfl
@[simp] theorem advancePtr_mode (s : State) : (advancePtr s).mode = s.mode := rfl
@[simp] theorem advancePtr_width (s : State) : (advancePtr s).width = s.width := rfl
@[simp] theorem advancePtr_height (s : State) : (advancePtr s).height = s.height := rfl
@[simp] theorem advancePtr_ptr (s : State) : (advancePtr s).ptr = s.ptr + 1 := rfl
@[simp] theorem advancePtr_pix (s : State) : (advancePtr s).pix = s.pix := rfl
@[simp] theorem advancePtr_pal (s : State) : (advancePtr s).pal = s.pal := rfl
@[simp] theorem advancePtr_plen (s : State) : (advancePtr s).plen = s.plen := rfl
@[simp] theorem advancePtr_idx (s : State) : (advancePtr s).idx = s.idx := rfl
@[simp] theorem advancePtr_out (s : State) : (advancePtr s).out = s.out := rfl
@[simp] theorem advancePtr_olen (s : State) : (advancePtr s).olen = s.olen := rfl
@[simp] theorem advancePtr_err (s : State) : (advancePtr s).err = s.err := rfl
@[simp] theorem advancePtr_einfo (s : State) : (advancePtr s).einfo = s.einfo := rfl
@[simp] theorem advancePtr_epoch (s : State) : (advancePtr s).epoch = s.epoch := rfl
@[simp] theorem advancePtr_inbox (s : State) : (advancePtr s).inbox = s.inbox := rfl
@[simp] theorem advancePtr_rsps (s : State) : (advancePtr s).rsps = s.rsps := rfl
@[simp] theorem pixAt_advancePtr (s : State) (j : Nat) : pixAt (advancePtr s) j = pixAt s j := rfl
@[simp] theorem idxAt_advancePtr (s : State) (j : Nat) : idxAt (advancePtr s) j = idxAt s j := rfl
@[simp] theorem palAt_advancePtr (s : State) (j : Nat) : palAt (advancePtr s) j = palAt s j := rfl
@[simp] theorem outAt_advancePtr (s : State) (j : Nat) : outAt (advancePtr s) j = outAt s j := rfl
@[simp] theorem pixelCount_advancePtr (s : State) : pixelCount (advancePtr s) = pixelCount s := rfl
@[simp] theorem pixels_advancePtr (s : State) : pixels (advancePtr s) = pixels s := rfl

/-! ## appendPal -/

@[simp] theorem appendPal_ref (s : State) (b : Byte) : (appendPal s b).ref = s.ref := rfl
@[simp] theorem appendPal_mode (s : State) (b : Byte) : (appendPal s b).mode = s.mode := rfl
@[simp] theorem appendPal_width (s : State) (b : Byte) : (appendPal s b).width = s.width := rfl
@[simp] theorem appendPal_height (s : State) (b : Byte) : (appendPal s b).height = s.height := rfl
@[simp] theorem appendPal_ptr (s : State) (b : Byte) : (appendPal s b).ptr = s.ptr := rfl
@[simp] theorem appendPal_pix (s : State) (b : Byte) : (appendPal s b).pix = s.pix := rfl
@[simp] theorem appendPal_pal (s : State) (b : Byte) : (appendPal s b).pal = s.pal.write s.plen.toNat b := rfl
@[simp] theorem appendPal_plen (s : State) (b : Byte) : (appendPal s b).plen = s.plen + 1 := rfl
@[simp] theorem appendPal_idx (s : State) (b : Byte) : (appendPal s b).idx = s.idx := rfl
@[simp] theorem appendPal_out (s : State) (b : Byte) : (appendPal s b).out = s.out := rfl
@[simp] theorem appendPal_olen (s : State) (b : Byte) : (appendPal s b).olen = s.olen := rfl
@[simp] theorem appendPal_err (s : State) (b : Byte) : (appendPal s b).err = s.err := rfl
@[simp] theorem appendPal_einfo (s : State) (b : Byte) : (appendPal s b).einfo = s.einfo := rfl
@[simp] theorem appendPal_epoch (s : State) (b : Byte) : (appendPal s b).epoch = s.epoch := rfl
@[simp] theorem appendPal_inbox (s : State) (b : Byte) : (appendPal s b).inbox = s.inbox := rfl
@[simp] theorem appendPal_rsps (s : State) (b : Byte) : (appendPal s b).rsps = s.rsps := rfl
@[simp] theorem pixAt_appendPal (s : State) (b : Byte) (j : Nat) : pixAt (appendPal s b) j = pixAt s j := rfl
@[simp] theorem idxAt_appendPal (s : State) (b : Byte) (j : Nat) : idxAt (appendPal s b) j = idxAt s j := rfl
@[simp] theorem outAt_appendPal (s : State) (b : Byte) (j : Nat) : outAt (appendPal s b) j = outAt s j := rfl
@[simp] theorem pixelCount_appendPal (s : State) (b : Byte) : pixelCount (appendPal s b) = pixelCount s := rfl
@[simp] theorem pixels_appendPal (s : State) (b : Byte) : pixels (appendPal s b) = pixels s := rfl

/-! ## installPalette -/

@[simp] theorem installPalette_ref (s : State) (l : List Byte) : (installPalette s l).ref = s.ref := rfl
@[simp] theorem installPalette_mode (s : State) (l : List Byte) : (installPalette s l).mode = s.mode := rfl
@[simp] theorem installPalette_width (s : State) (l : List Byte) : (installPalette s l).width = s.width := rfl
@[simp] theorem installPalette_height (s : State) (l : List Byte) : (installPalette s l).height = s.height := rfl
@[simp] theorem installPalette_ptr (s : State) (l : List Byte) : (installPalette s l).ptr = s.ptr := rfl
@[simp] theorem installPalette_pix (s : State) (l : List Byte) : (installPalette s l).pix = s.pix := rfl
@[simp] theorem installPalette_pal (s : State) (l : List Byte) : (installPalette s l).pal = Memory.ofList l := rfl
@[simp] theorem installPalette_plen (s : State) (l : List Byte) : (installPalette s l).plen = BitVec.ofNat 5 l.length := rfl
@[simp] theorem installPalette_idx (s : State) (l : List Byte) : (installPalette s l).idx = s.idx := rfl
@[simp] theorem installPalette_out (s : State) (l : List Byte) : (installPalette s l).out = s.out := rfl
@[simp] theorem installPalette_olen (s : State) (l : List Byte) : (installPalette s l).olen = s.olen := rfl
@[simp] theorem installPalette_err (s : State) (l : List Byte) : (installPalette s l).err = s.err := rfl
@[simp] theorem installPalette_einfo (s : State) (l : List Byte) : (installPalette s l).einfo = s.einfo := rfl
@[simp] theorem installPalette_epoch (s : State) (l : List Byte) : (installPalette s l).epoch = s.epoch := rfl
@[simp] theorem installPalette_inbox (s : State) (l : List Byte) : (installPalette s l).inbox = s.inbox := rfl
@[simp] theorem installPalette_rsps (s : State) (l : List Byte) : (installPalette s l).rsps = s.rsps := rfl
@[simp] theorem pixAt_installPalette (s : State) (l : List Byte) (j : Nat) : pixAt (installPalette s l) j = pixAt s j := rfl
@[simp] theorem idxAt_installPalette (s : State) (l : List Byte) (j : Nat) : idxAt (installPalette s l) j = idxAt s j := rfl
@[simp] theorem outAt_installPalette (s : State) (l : List Byte) (j : Nat) : outAt (installPalette s l) j = outAt s j := rfl
@[simp] theorem pixelCount_installPalette (s : State) (l : List Byte) : pixelCount (installPalette s l) = pixelCount s := rfl
@[simp] theorem pixels_installPalette (s : State) (l : List Byte) : pixels (installPalette s l) = pixels s := rfl

/-! ## installIndices -/

@[simp] theorem installIndices_ref (s : State) (l : List Nibble) : (installIndices s l).ref = s.ref := rfl
@[simp] theorem installIndices_mode (s : State) (l : List Nibble) : (installIndices s l).mode = s.mode := rfl
@[simp] theorem installIndices_width (s : State) (l : List Nibble) : (installIndices s l).width = s.width := rfl
@[simp] theorem installIndices_height (s : State) (l : List Nibble) : (installIndices s l).height = s.height := rfl
@[simp] theorem installIndices_ptr (s : State) (l : List Nibble) : (installIndices s l).ptr = s.ptr := rfl
@[simp] theorem installIndices_pix (s : State) (l : List Nibble) : (installIndices s l).pix = s.pix := rfl
@[simp] theorem installIndices_pal (s : State) (l : List Nibble) : (installIndices s l).pal = s.pal := rfl
@[simp] theorem installIndices_plen (s : State) (l : List Nibble) : (installIndices s l).plen = s.plen := rfl
@[simp] theorem installIndices_idx (s : State) (l : List Nibble) : (installIndices s l).idx = s.idx.writeAll 0 l := rfl
@[simp] theorem installIndices_out (s : State) (l : List Nibble) : (installIndices s l).out = s.out := rfl
@[simp] theorem installIndices_olen (s : State) (l : List Nibble) : (installIndices s l).olen = s.olen := rfl
@[simp] theorem installIndices_err (s : State) (l : List Nibble) : (installIndices s l).err = s.err := rfl
@[simp] theorem installIndices_einfo (s : State) (l : List Nibble) : (installIndices s l).einfo = s.einfo := rfl
@[simp] theorem installIndices_epoch (s : State) (l : List Nibble) : (installIndices s l).epoch = s.epoch := rfl
@[simp] theorem installIndices_inbox (s : State) (l : List Nibble) : (installIndices s l).inbox = s.inbox := rfl
@[simp] theorem installIndices_rsps (s : State) (l : List Nibble) : (installIndices s l).rsps = s.rsps := rfl
@[simp] theorem pixAt_installIndices (s : State) (l : List Nibble) (j : Nat) : pixAt (installIndices s l) j = pixAt s j := rfl
@[simp] theorem palAt_installIndices (s : State) (l : List Nibble) (j : Nat) : palAt (installIndices s l) j = palAt s j := rfl
@[simp] theorem outAt_installIndices (s : State) (l : List Nibble) (j : Nat) : outAt (installIndices s l) j = outAt s j := rfl
@[simp] theorem pixelCount_installIndices (s : State) (l : List Nibble) : pixelCount (installIndices s l) = pixelCount s := rfl
@[simp] theorem pixels_installIndices (s : State) (l : List Nibble) : pixels (installIndices s l) = pixels s := rfl

/-! ## installImage -/

@[simp] theorem installImage_ref (s : State) (l : List Byte) : (installImage s l).ref = s.ref := rfl
@[simp] theorem installImage_mode (s : State) (l : List Byte) : (installImage s l).mode = s.mode := rfl
@[simp] theorem installImage_width (s : State) (l : List Byte) : (installImage s l).width = s.width := rfl
@[simp] theorem installImage_height (s : State) (l : List Byte) : (installImage s l).height = s.height := rfl
@[simp] theorem installImage_ptr (s : State) (l : List Byte) : (installImage s l).ptr = s.ptr := rfl
@[simp] theorem installImage_pix (s : State) (l : List Byte) : (installImage s l).pix = s.pix := rfl
@[simp] theorem installImage_pal (s : State) (l : List Byte) : (installImage s l).pal = s.pal := rfl
@[simp] theorem installImage_plen (s : State) (l : List Byte) : (installImage s l).plen = s.plen := rfl
@[simp] theorem installImage_idx (s : State) (l : List Byte) : (installImage s l).idx = s.idx := rfl
@[simp] theorem installImage_out (s : State) (l : List Byte) : (installImage s l).out = Memory.ofList l := rfl
@[simp] theorem installImage_olen (s : State) (l : List Byte) : (installImage s l).olen = BitVec.ofNat 9 l.length := rfl
@[simp] theorem installImage_err (s : State) (l : List Byte) : (installImage s l).err = s.err := rfl
@[simp] theorem installImage_einfo (s : State) (l : List Byte) : (installImage s l).einfo = s.einfo := rfl
@[simp] theorem installImage_epoch (s : State) (l : List Byte) : (installImage s l).epoch = s.epoch := rfl
@[simp] theorem installImage_inbox (s : State) (l : List Byte) : (installImage s l).inbox = s.inbox := rfl
@[simp] theorem installImage_rsps (s : State) (l : List Byte) : (installImage s l).rsps = s.rsps := rfl
@[simp] theorem pixAt_installImage (s : State) (l : List Byte) (j : Nat) : pixAt (installImage s l) j = pixAt s j := rfl
@[simp] theorem idxAt_installImage (s : State) (l : List Byte) (j : Nat) : idxAt (installImage s l) j = idxAt s j := rfl
@[simp] theorem palAt_installImage (s : State) (l : List Byte) (j : Nat) : palAt (installImage s l) j = palAt s j := rfl
@[simp] theorem pixelCount_installImage (s : State) (l : List Byte) : pixelCount (installImage s l) = pixelCount s := rfl
@[simp] theorem pixels_installImage (s : State) (l : List Byte) : pixels (installImage s l) = pixels s := rfl

/-! ## clearPalette -/

@[simp] theorem clearPalette_ref (s : State) : (clearPalette s).ref = s.ref := rfl
@[simp] theorem clearPalette_mode (s : State) : (clearPalette s).mode = s.mode := rfl
@[simp] theorem clearPalette_width (s : State) : (clearPalette s).width = s.width := rfl
@[simp] theorem clearPalette_height (s : State) : (clearPalette s).height = s.height := rfl
@[simp] theorem clearPalette_ptr (s : State) : (clearPalette s).ptr = s.ptr := rfl
@[simp] theorem clearPalette_pix (s : State) : (clearPalette s).pix = s.pix := rfl
@[simp] theorem clearPalette_pal (s : State) : (clearPalette s).pal = [] := rfl
@[simp] theorem clearPalette_plen (s : State) : (clearPalette s).plen = 0 := rfl
@[simp] theorem clearPalette_idx (s : State) : (clearPalette s).idx = s.idx := rfl
@[simp] theorem clearPalette_out (s : State) : (clearPalette s).out = s.out := rfl
@[simp] theorem clearPalette_olen (s : State) : (clearPalette s).olen = s.olen := rfl
@[simp] theorem clearPalette_err (s : State) : (clearPalette s).err = s.err := rfl
@[simp] theorem clearPalette_einfo (s : State) : (clearPalette s).einfo = s.einfo := rfl
@[simp] theorem clearPalette_epoch (s : State) : (clearPalette s).epoch = s.epoch := rfl
@[simp] theorem clearPalette_inbox (s : State) : (clearPalette s).inbox = s.inbox := rfl
@[simp] theorem clearPalette_rsps (s : State) : (clearPalette s).rsps = s.rsps := rfl
@[simp] theorem pixAt_clearPalette (s : State) (j : Nat) : pixAt (clearPalette s) j = pixAt s j := rfl
@[simp] theorem idxAt_clearPalette (s : State) (j : Nat) : idxAt (clearPalette s) j = idxAt s j := rfl
@[simp] theorem outAt_clearPalette (s : State) (j : Nat) : outAt (clearPalette s) j = outAt s j := rfl
@[simp] theorem pixelCount_clearPalette (s : State) : pixelCount (clearPalette s) = pixelCount s := rfl
@[simp] theorem pixels_clearPalette (s : State) : pixels (clearPalette s) = pixels s := rfl

/-! ## clearResults -/

@[simp] theorem clearResults_ref (s : State) : (clearResults s).ref = s.ref := rfl
@[simp] theorem clearResults_mode (s : State) : (clearResults s).mode = s.mode := rfl
@[simp] theorem clearResults_width (s : State) : (clearResults s).width = s.width := rfl
@[simp] theorem clearResults_height (s : State) : (clearResults s).height = s.height := rfl
@[simp] theorem clearResults_ptr (s : State) : (clearResults s).ptr = s.ptr := rfl
@[simp] theorem clearResults_pix (s : State) : (clearResults s).pix = s.pix := rfl
@[simp] theorem clearResults_pal (s : State) : (clearResults s).pal = [] := rfl
@[simp] theorem clearResults_plen (s : State) : (clearResults s).plen = 0 := rfl
@[simp] theorem clearResults_idx (s : State) : (clearResults s).idx = s.idx := rfl
@[simp] theorem clearResults_out (s : State) : (clearResults s).out = [] := rfl
@[simp] theorem clearResults_olen (s : State) : (clearResults s).olen = 0 := rfl
@[simp] theorem clearResults_err (s : State) : (clearResults s).err = s.err := rfl
@[simp] theorem clearResults_einfo (s : State) : (clearResults s).einfo = s.einfo := rfl
@[simp] theorem clearResults_epoch (s : State) : (clearResults s).epoch = s.epoch := rfl
@[simp] theorem clearResults_inbox (s : State) : (clearResults s).inbox = s.inbox := rfl
@[simp] theorem clearResults_rsps (s : State) : (clearResults s).rsps = s.rsps := rfl
@[simp] theorem pixAt_clearResults (s : State) (j : Nat) : pixAt (clearResults s) j = pixAt s j := rfl
@[simp] theorem idxAt_clearResults (s : State) (j : Nat) : idxAt (clearResults s) j = idxAt s j := rfl
@[simp] theorem pixelCount_clearResults (s : State) : pixelCount (clearResults s) = pixelCount s := rfl
@[simp] theorem pixels_clearResults (s : State) : pixels (clearResults s) = pixels s := rfl

/-! ## returnResponse -/

@[simp] theorem returnResponse_ref (st : BitVec 4) (d : BitVec 24) (s : State) : (returnResponse st d s).ref = s.ref := rfl
@[simp] theorem returnResponse_mode (st : BitVec 4) (d : BitVec 24) (s : State) : (returnResponse st d s).mode = s.mode := rfl
@[simp] theorem returnResponse_width (st : BitVec 4) (d : BitVec 24) (s : State) : (returnResponse st d s).width = s.width := rfl
@[simp] theorem returnResponse_height (st : BitVec 4) (d : BitVec 24) (s : State) : (returnResponse st d s).height = s.height := rfl
@[simp] theorem returnResponse_ptr (st : BitVec 4) (d : BitVec 24) (s : State) : (returnResponse st d s).ptr = s.ptr := rfl
@[simp] theorem returnResponse_pix (st : BitVec 4) (d : BitVec 24) (s : State) : (returnResponse st d s).pix = s.pix := rfl
@[simp] theorem returnResponse_pal (st : BitVec 4) (d : BitVec 24) (s : State) : (returnResponse st d s).pal = s.pal := rfl
@[simp] theorem returnResponse_plen (st : BitVec 4) (d : BitVec 24) (s : State) : (returnResponse st d s).plen = s.plen := rfl
@[simp] theorem returnResponse_idx (st : BitVec 4) (d : BitVec 24) (s : State) : (returnResponse st d s).idx = s.idx := rfl
@[simp] theorem returnResponse_out (st : BitVec 4) (d : BitVec 24) (s : State) : (returnResponse st d s).out = s.out := rfl
@[simp] theorem returnResponse_olen (st : BitVec 4) (d : BitVec 24) (s : State) : (returnResponse st d s).olen = s.olen := rfl
@[simp] theorem returnResponse_err (st : BitVec 4) (d : BitVec 24) (s : State) : (returnResponse st d s).err = s.err := rfl
@[simp] theorem returnResponse_einfo (st : BitVec 4) (d : BitVec 24) (s : State) : (returnResponse st d s).einfo = s.einfo := rfl
@[simp] theorem returnResponse_epoch (st : BitVec 4) (d : BitVec 24) (s : State) : (returnResponse st d s).epoch = s.epoch := rfl
@[simp] theorem returnResponse_inbox (st : BitVec 4) (d : BitVec 24) (s : State) : (returnResponse st d s).inbox = s.inbox := rfl
@[simp] theorem returnResponse_rsps (st : BitVec 4) (d : BitVec 24) (s : State) : (returnResponse st d s).rsps = s.rsps ++ [responseWord st d] := rfl
@[simp] theorem pixAt_returnResponse (st : BitVec 4) (d : BitVec 24) (s : State) (j : Nat) : pixAt (returnResponse st d s) j = pixAt s j := rfl
@[simp] theorem idxAt_returnResponse (st : BitVec 4) (d : BitVec 24) (s : State) (j : Nat) : idxAt (returnResponse st d s) j = idxAt s j := rfl
@[simp] theorem palAt_returnResponse (st : BitVec 4) (d : BitVec 24) (s : State) (j : Nat) : palAt (returnResponse st d s) j = palAt s j := rfl
@[simp] theorem outAt_returnResponse (st : BitVec 4) (d : BitVec 24) (s : State) (j : Nat) : outAt (returnResponse st d s) j = outAt s j := rfl
@[simp] theorem pixelCount_returnResponse (st : BitVec 4) (d : BitVec 24) (s : State) : pixelCount (returnResponse st d s) = pixelCount s := rfl
@[simp] theorem pixels_returnResponse (st : BitVec 4) (d : BitVec 24) (s : State) : pixels (returnResponse st d s) = pixels s := rfl

/-! ## respond -/

@[simp] theorem respond_ref (d : BitVec 24) (s : State) : (respond d s).ref = s.ref := rfl
@[simp] theorem respond_mode (d : BitVec 24) (s : State) : (respond d s).mode = s.mode := rfl
@[simp] theorem respond_width (d : BitVec 24) (s : State) : (respond d s).width = s.width := rfl
@[simp] theorem respond_height (d : BitVec 24) (s : State) : (respond d s).height = s.height := rfl
@[simp] theorem respond_ptr (d : BitVec 24) (s : State) : (respond d s).ptr = s.ptr := rfl
@[simp] theorem respond_pix (d : BitVec 24) (s : State) : (respond d s).pix = s.pix := rfl
@[simp] theorem respond_pal (d : BitVec 24) (s : State) : (respond d s).pal = s.pal := rfl
@[simp] theorem respond_plen (d : BitVec 24) (s : State) : (respond d s).plen = s.plen := rfl
@[simp] theorem respond_idx (d : BitVec 24) (s : State) : (respond d s).idx = s.idx := rfl
@[simp] theorem respond_out (d : BitVec 24) (s : State) : (respond d s).out = s.out := rfl
@[simp] theorem respond_olen (d : BitVec 24) (s : State) : (respond d s).olen = s.olen := rfl
@[simp] theorem respond_err (d : BitVec 24) (s : State) : (respond d s).err = s.err := rfl
@[simp] theorem respond_einfo (d : BitVec 24) (s : State) : (respond d s).einfo = s.einfo := rfl
@[simp] theorem respond_epoch (d : BitVec 24) (s : State) : (respond d s).epoch = s.epoch := rfl
@[simp] theorem respond_inbox (d : BitVec 24) (s : State) : (respond d s).inbox = s.inbox := rfl
@[simp] theorem respond_rsps (d : BitVec 24) (s : State) : (respond d s).rsps = s.rsps ++ [responseWord statusOk d] := rfl
@[simp] theorem pixAt_respond (d : BitVec 24) (s : State) (j : Nat) : pixAt (respond d s) j = pixAt s j := rfl
@[simp] theorem idxAt_respond (d : BitVec 24) (s : State) (j : Nat) : idxAt (respond d s) j = idxAt s j := rfl
@[simp] theorem palAt_respond (d : BitVec 24) (s : State) (j : Nat) : palAt (respond d s) j = palAt s j := rfl
@[simp] theorem outAt_respond (d : BitVec 24) (s : State) (j : Nat) : outAt (respond d s) j = outAt s j := rfl
@[simp] theorem pixelCount_respond (d : BitVec 24) (s : State) : pixelCount (respond d s) = pixelCount s := rfl
@[simp] theorem pixels_respond (d : BitVec 24) (s : State) : pixels (respond d s) = pixels s := rfl

/-! ## raise -/

@[simp] theorem raise_ref (c : Cause) (d : BitVec 24) (s : State) : (raise c d s).ref = s.ref := rfl
@[simp] theorem raise_mode (c : Cause) (d : BitVec 24) (s : State) : (raise c d s).mode = s.mode := rfl
@[simp] theorem raise_width (c : Cause) (d : BitVec 24) (s : State) : (raise c d s).width = s.width := rfl
@[simp] theorem raise_height (c : Cause) (d : BitVec 24) (s : State) : (raise c d s).height = s.height := rfl
@[simp] theorem raise_ptr (c : Cause) (d : BitVec 24) (s : State) : (raise c d s).ptr = s.ptr := rfl
@[simp] theorem raise_pix (c : Cause) (d : BitVec 24) (s : State) : (raise c d s).pix = s.pix := rfl
@[simp] theorem raise_pal (c : Cause) (d : BitVec 24) (s : State) : (raise c d s).pal = [] := rfl
@[simp] theorem raise_plen (c : Cause) (d : BitVec 24) (s : State) : (raise c d s).plen = 0 := rfl
@[simp] theorem raise_idx (c : Cause) (d : BitVec 24) (s : State) : (raise c d s).idx = s.idx := rfl
@[simp] theorem raise_out (c : Cause) (d : BitVec 24) (s : State) : (raise c d s).out = [] := rfl
@[simp] theorem raise_olen (c : Cause) (d : BitVec 24) (s : State) : (raise c d s).olen = 0 := rfl
@[simp] theorem raise_err (c : Cause) (d : BitVec 24) (s : State) : (raise c d s).err = c.code := rfl
@[simp] theorem raise_einfo (c : Cause) (d : BitVec 24) (s : State) : (raise c d s).einfo = d := rfl
@[simp] theorem raise_epoch (c : Cause) (d : BitVec 24) (s : State) : (raise c d s).epoch = s.epoch := rfl
@[simp] theorem raise_inbox (c : Cause) (d : BitVec 24) (s : State) : (raise c d s).inbox = s.inbox := rfl
@[simp] theorem raise_rsps (c : Cause) (d : BitVec 24) (s : State) : (raise c d s).rsps = s.rsps ++ [responseWord c.code d] := rfl
@[simp] theorem pixAt_raise (c : Cause) (d : BitVec 24) (s : State) (j : Nat) : pixAt (raise c d s) j = pixAt s j := rfl
@[simp] theorem idxAt_raise (c : Cause) (d : BitVec 24) (s : State) (j : Nat) : idxAt (raise c d s) j = idxAt s j := rfl
@[simp] theorem pixelCount_raise (c : Cause) (d : BitVec 24) (s : State) : pixelCount (raise c d s) = pixelCount s := rfl
@[simp] theorem pixels_raise (c : Cause) (d : BitVec 24) (s : State) : pixels (raise c d s) = pixels s := rfl

/-! ## returnFromTrap -/

@[simp] theorem returnFromTrap_ref (s : State) : (returnFromTrap s).ref = s.ref := rfl
@[simp] theorem returnFromTrap_mode (s : State) : (returnFromTrap s).mode = s.mode := rfl
@[simp] theorem returnFromTrap_width (s : State) : (returnFromTrap s).width = s.width := rfl
@[simp] theorem returnFromTrap_height (s : State) : (returnFromTrap s).height = s.height := rfl
@[simp] theorem returnFromTrap_ptr (s : State) : (returnFromTrap s).ptr = s.ptr := rfl
@[simp] theorem returnFromTrap_pix (s : State) : (returnFromTrap s).pix = s.pix := rfl
@[simp] theorem returnFromTrap_pal (s : State) : (returnFromTrap s).pal = [] := rfl
@[simp] theorem returnFromTrap_plen (s : State) : (returnFromTrap s).plen = 0 := rfl
@[simp] theorem returnFromTrap_idx (s : State) : (returnFromTrap s).idx = s.idx := rfl
@[simp] theorem returnFromTrap_out (s : State) : (returnFromTrap s).out = [] := rfl
@[simp] theorem returnFromTrap_olen (s : State) : (returnFromTrap s).olen = 0 := rfl
@[simp] theorem returnFromTrap_err (s : State) : (returnFromTrap s).err = 0 := rfl
@[simp] theorem returnFromTrap_einfo (s : State) : (returnFromTrap s).einfo = 0 := rfl
@[simp] theorem returnFromTrap_epoch (s : State) : (returnFromTrap s).epoch = s.epoch := rfl
@[simp] theorem returnFromTrap_inbox (s : State) : (returnFromTrap s).inbox = s.inbox := rfl
@[simp] theorem returnFromTrap_rsps (s : State) : (returnFromTrap s).rsps = s.rsps := rfl
@[simp] theorem pixAt_returnFromTrap (s : State) (j : Nat) : pixAt (returnFromTrap s) j = pixAt s j := rfl
@[simp] theorem idxAt_returnFromTrap (s : State) (j : Nat) : idxAt (returnFromTrap s) j = idxAt s j := rfl
@[simp] theorem pixelCount_returnFromTrap (s : State) : pixelCount (returnFromTrap s) = pixelCount s := rfl
@[simp] theorem pixels_returnFromTrap (s : State) : pixels (returnFromTrap s) = pixels s := rfl

/-! ## reject -/

@[simp] theorem reject_ref (s : State) : (reject s).ref = s.ref := rfl
@[simp] theorem reject_mode (s : State) : (reject s).mode = s.mode := rfl
@[simp] theorem reject_width (s : State) : (reject s).width = s.width := rfl
@[simp] theorem reject_height (s : State) : (reject s).height = s.height := rfl
@[simp] theorem reject_ptr (s : State) : (reject s).ptr = s.ptr := rfl
@[simp] theorem reject_pix (s : State) : (reject s).pix = s.pix := rfl
@[simp] theorem reject_pal (s : State) : (reject s).pal = s.pal := rfl
@[simp] theorem reject_plen (s : State) : (reject s).plen = s.plen := rfl
@[simp] theorem reject_idx (s : State) : (reject s).idx = s.idx := rfl
@[simp] theorem reject_out (s : State) : (reject s).out = s.out := rfl
@[simp] theorem reject_olen (s : State) : (reject s).olen = s.olen := rfl
@[simp] theorem reject_err (s : State) : (reject s).err = s.err := rfl
@[simp] theorem reject_einfo (s : State) : (reject s).einfo = s.einfo := rfl
@[simp] theorem reject_epoch (s : State) : (reject s).epoch = s.epoch := rfl
@[simp] theorem reject_inbox (s : State) : (reject s).inbox = s.inbox := rfl
@[simp] theorem reject_rsps (s : State) : (reject s).rsps = s.rsps ++ [responseWord statusRejected (s.err.setWidth 24)] := rfl
@[simp] theorem pixAt_reject (s : State) (j : Nat) : pixAt (reject s) j = pixAt s j := rfl
@[simp] theorem idxAt_reject (s : State) (j : Nat) : idxAt (reject s) j = idxAt s j := rfl
@[simp] theorem palAt_reject (s : State) (j : Nat) : palAt (reject s) j = palAt s j := rfl
@[simp] theorem outAt_reject (s : State) (j : Nat) : outAt (reject s) j = outAt s j := rfl
@[simp] theorem pixelCount_reject (s : State) : pixelCount (reject s) = pixelCount s := rfl
@[simp] theorem pixels_reject (s : State) : pixels (reject s) = pixels s := rfl

/-! ## hardwareReset -/

@[simp] theorem hardwareReset_ref (s : State) : (hardwareReset s).ref = s.ref := rfl
@[simp] theorem hardwareReset_mode (s : State) : (hardwareReset s).mode = .mode0 := rfl
@[simp] theorem hardwareReset_width (s : State) : (hardwareReset s).width = 0 := rfl
@[simp] theorem hardwareReset_height (s : State) : (hardwareReset s).height = 0 := rfl
@[simp] theorem hardwareReset_ptr (s : State) : (hardwareReset s).ptr = 0 := rfl
@[simp] theorem hardwareReset_pix (s : State) : (hardwareReset s).pix = [] := rfl
@[simp] theorem hardwareReset_pal (s : State) : (hardwareReset s).pal = [] := rfl
@[simp] theorem hardwareReset_plen (s : State) : (hardwareReset s).plen = 0 := rfl
@[simp] theorem hardwareReset_idx (s : State) : (hardwareReset s).idx = [] := rfl
@[simp] theorem hardwareReset_out (s : State) : (hardwareReset s).out = [] := rfl
@[simp] theorem hardwareReset_olen (s : State) : (hardwareReset s).olen = 0 := rfl
@[simp] theorem hardwareReset_err (s : State) : (hardwareReset s).err = 0 := rfl
@[simp] theorem hardwareReset_einfo (s : State) : (hardwareReset s).einfo = 0 := rfl
@[simp] theorem hardwareReset_epoch (s : State) : (hardwareReset s).epoch = s.epoch + 1 := rfl
@[simp] theorem hardwareReset_inbox (s : State) : (hardwareReset s).inbox = s.inbox := rfl
@[simp] theorem hardwareReset_rsps (s : State) : (hardwareReset s).rsps = s.rsps := rfl

/-! ## presentNext -/

@[simp] theorem presentNext_inbox (cmd : Word) (s : State) : (presentNext cmd s).inbox = .command cmd :: s.inbox := rfl

end Sys2Proof.Machine
end

