-- ==== Sys2Proof/Laws/Ops.lean ====
section
/-! SUPPORT. Laws/Ops.lean: for each shared operation, one lemma that says what it does: the fields of a response word, the frame
of each update, how a command ends, what each array reads after a write, the table lookups, the preconditions. -/

namespace Sys2Proof.Machine

/-! ## Response words -/
@[simp] theorem statusOf_responseWord (st : BitVec 4) (d : BitVec 24) : statusOf (responseWord st d) = st := by
  apply BitVec.eq_of_getLsbD_eq; intro i hi
  have h1 : 28 + i < 32 := by omega
  simp [statusOf, responseWord, hi, h1, BitVec.getLsbD_of_ge d (28 + i) (by omega)]

@[simp] theorem dataOf_responseWord (st : BitVec 4) (d : BitVec 24) : dataOf (responseWord st d) = d := by
  apply BitVec.eq_of_getLsbD_eq; intro i hi
  have h1 : i < 28 := by omega
  have h2 : i < 32 := by omega
  simp [dataOf, responseWord, hi, h1, h2]

@[simp] theorem responseWord_zero_field (st : BitVec 4) (d : BitVec 24) : (responseWord st d).extractLsb' 24 4 = 0 := by
  apply BitVec.eq_of_getLsbD_eq; intro i hi
  have h1 : 24 + i < 28 := by omega
  simp [responseWord, hi, h1]

/-! ## Frames -/
theorem onlyChanges_refl (s : State) (fs : List Field) : OnlyChanges fs s s := by
  intro f _; cases f <;> simp [Unchanged]

theorem OnlyChanges.mono {fs gs : List Field} {s t : State} (h : OnlyChanges fs s t) (hs : ∀ f ∈ fs, f ∈ gs) :
    OnlyChanges gs s t := fun f hf => h f fun hm => hf (hs f hm)

theorem OnlyChanges.trans {fs gs hs : List Field} {s t u : State} (h : OnlyChanges fs s t) (h' : OnlyChanges gs t u)
    (hf : ∀ f ∈ fs, f ∈ hs) (hg : ∀ f ∈ gs, f ∈ hs) : OnlyChanges hs s u := by
  intro f hn
  have a := h f fun hm => hn (hf f hm)
  have b := h' f fun hm => hn (hg f hm)
  cases f <;> simp_all [Unchanged]

theorem onlyChanges_respond (d : BitVec 24) (s : State) : OnlyChanges [] s (respond d s) := by
  intro f _; cases f <;> simp [Unchanged]

theorem onlyChanges_reject (s : State) : OnlyChanges [] s (reject s) := by
  intro f _; cases f <;> simp [Unchanged]

theorem onlyChanges_raise (c : Cause) (d : BitVec 24) (s : State) :
    OnlyChanges [.err, .einfo, .plen, .olen, .pal, .out] s (raise c d s) := by
  intro f hf; cases f <;> simp_all [Unchanged]

theorem onlyChanges_returnFromTrap (s : State) :
    OnlyChanges [.err, .einfo, .plen, .olen, .pal, .out] s (returnFromTrap s) := by
  intro f hf; cases f <;> simp_all [Unchanged]

theorem onlyChanges_advancePtr (s : State) : OnlyChanges [.ptr] s (advancePtr s) := by
  intro f hf; cases f <;> simp_all [Unchanged]

theorem onlyChanges_writePix (s : State) (k : Nat) (c : ColourWord) : OnlyChanges [.pix] s (writePix s k c) := by
  intro f hf; cases f <;> simp_all [Unchanged]

theorem onlyChanges_writeIdx (s : State) (k : Nat) (v : Nibble) : OnlyChanges [.idx] s (writeIdx s k v) := by
  intro f hf; cases f <;> simp_all [Unchanged]

theorem onlyChanges_appendPal (s : State) (b : Byte) : OnlyChanges [.pal, .plen] s (appendPal s b) := by
  intro f hf; cases f <;> simp_all [Unchanged]

theorem onlyChanges_installPalette (s : State) (l : List Byte) : OnlyChanges [.pal, .plen] s (installPalette s l) := by
  intro f hf; cases f <;> simp_all [Unchanged]

theorem onlyChanges_installIndices (s : State) (l : List Nibble) : OnlyChanges [.idx] s (installIndices s l) := by
  intro f hf; cases f <;> simp_all [Unchanged]

theorem onlyChanges_installImage (s : State) (l : List Byte) : OnlyChanges [.out, .olen] s (installImage s l) := by
  intro f hf; cases f <;> simp_all [Unchanged]

theorem onlyChanges_clearPalette (s : State) : OnlyChanges [.pal, .plen] s (clearPalette s) := by
  intro f hf; cases f <;> simp_all [Unchanged]

/-! ## How a command ends -/
theorem whenReady_ready {s : State} (h : s.err = 0) (rule : State → State) : whenReady s rule = rule s := by
  simp [whenReady, h]

theorem whenReady_faulted {s : State} (h : s.err ≠ 0) (rule : State → State) : whenReady s rule = reject s := by
  rw [whenReady, if_neg h]

theorem raise_trapped (c : Cause) (d : BitVec 24) (s : State) : Trapped c d s (raise c d s) :=
  ⟨rfl, rfl, rfl, rfl, rfl, onlyChanges_raise c d s⟩

theorem reject_rejected (s : State) : Rejected s (reject s) := ⟨rfl, onlyChanges_reject s⟩

theorem respond_responds (d : BitVec 24) (s : State) : Responds statusOk d s (respond d s) := rfl

/-! ## Array reads after writes -/
theorem pixAt_writePix (s : State) (k j : Nat) (c : ColourWord) :
    pixAt (writePix s k c) j = if j = k then c else pixAt s j := by
  simp only [pixAt, writePix_pix, writePix_epoch, Memory.read_write]; split <;> rfl

theorem idxAt_writeIdx (s : State) (k j : Nat) (v : Nibble) :
    idxAt (writeIdx s k v) j = if j = k then v else idxAt s j := by
  simp only [idxAt, writeIdx_idx, writeIdx_epoch, Memory.read_write]; split <;> rfl

theorem palAt_appendPal (s : State) (b : Byte) (j : Nat) :
    palAt (appendPal s b) j = if j = s.plen.toNat then b else palAt s j := by
  simp only [palAt, appendPal_pal, appendPal_epoch, Memory.read_write]; split <;> rfl

theorem palAt_installPalette {s : State} {l : List Byte} {i : Nat} {b : Byte} (h : l[i]? = some b) :
    palAt (installPalette s l) i = b := by
  simp [palAt, h]

theorem outAt_installImage {s : State} {l : List Byte} {j : Nat} {b : Byte} (h : l[j]? = some b) :
    outAt (installImage s l) j = b := by
  simp [outAt, h]

theorem idxAt_installIndices (s : State) (l : List Nibble) (k : Nat) :
    idxAt (installIndices s l) k = (l[k]?).getD (idxAt s k) := by
  simp only [idxAt, installIndices_idx, installIndices_epoch, Memory.read_writeAll]
  by_cases h : k < l.length
  · simp [h]
  · simp [h]

/-! ## Table lookups -/
theorem fwOfRgb_some {ref : RefTable} {c : ColourWord} {f : FwIndex} (h : fwOfRgb ref c = some f) : rgbOf ref f = c := by
  have := List.find?_some h; simpa using this

theorem fwOfRgb_none {ref : RefTable} {c : ColourWord} : fwOfRgb ref c = none ↔ ¬ IsReferenceColour ref c := by
  simp [fwOfRgb, IsReferenceColour, List.find?_eq_none]

theorem fwOfRgb_isSome {ref : RefTable} {c : ColourWord} : (fwOfRgb ref c).isSome = true ↔ IsReferenceColour ref c := by
  rw [← not_iff_not, ← fwOfRgb_none]; simp

theorem fwOfRgb_rgbOf {ref : RefTable} (h : ref.WellFormed) (f : FwIndex) : fwOfRgb ref (rgbOf ref f) = some f := by
  cases hc : fwOfRgb ref (rgbOf ref f) with
  | none => exact absurd ⟨f, rfl⟩ (fwOfRgb_none.mp hc)
  | some g => rw [h.1 g f (fwOfRgb_some hc)]

theorem fwOfHw_some {ref : RefTable} {b : Byte} {f : FwIndex} (h : fwOfHw ref b = some f) : hwOf ref f = b := by
  have := List.find?_some h; simpa using this

theorem fwOfHw_none {ref : RefTable} {b : Byte} : fwOfHw ref b = none ↔ ¬ IsHardwareByte ref b := by
  simp [fwOfHw, IsHardwareByte, List.find?_eq_none]

theorem validHw_iff {ref : RefTable} {b : Byte} : validHw ref b = true ↔ IsHardwareByte ref b := by
  rw [validHw, ← not_iff_not, ← fwOfHw_none]; simp

theorem fwOfHw_hwOf {ref : RefTable} (h : ref.WellFormed) (f : FwIndex) : fwOfHw ref (hwOf ref f) = some f := by
  cases hc : fwOfHw ref (hwOf ref f) with
  | none => exact absurd ⟨f, rfl⟩ (fwOfHw_none.mp hc)
  | some g => rw [h.2 g f (fwOfHw_some hc)]

theorem rgbOfHw_hwOf {ref : RefTable} (h : ref.WellFormed) (f : FwIndex) : rgbOfHw ref (hwOf ref f) = rgbOf ref f := by
  simp [rgbOfHw, fwOfHw_hwOf h]

theorem code_ne_zero (c : Cause) : c.code ≠ 0 := by cases c <;> decide

theorem code_range (c : Cause) : 1 ≤ c.code.toNat ∧ c.code.toNat ≤ 7 := by cases c <;> decide

/-! ## Preconditions -/
theorem unconfigured_iff {s : State} : unconfigured s = false ↔ Configured s := by
  simp [unconfigured, Configured]

theorem rowsSplitBytes_iff {s : State} : rowsSplitBytes s = false ↔ s.width.toNat % s.mode.ppb = 0 := by
  simp [rowsSplitBytes]

theorem packableSize_iff {s : State} : (unconfigured s || rowsSplitBytes s) = false ↔ PackableSize s := by
  rw [Bool.or_eq_false_iff, unconfigured_iff, rowsSplitBytes_iff, PackableSize]

theorem paletteUnusable_iff {s : State} : paletteUnusable s = false ↔ PaletteUsable s := by
  simp [paletteUnusable, PaletteUsable]

end Sys2Proof.Machine
end

