-- ==== Sys2Proof/Laws/Compute.lean ====
section
/-! SUPPORT. Laws/Compute.lean: what the compute phases do: the fields each leaves, its frame, the counting scan, the ranking, and
what the arrays and lengths read after each phase. -/

namespace Sys2Proof.Machine

/-! ## buildPalette: the fields it leaves -/

@[simp] theorem buildPalette_ref (cnt : Counts) (s : State) : (buildPalette cnt s).ref = s.ref := rfl
@[simp] theorem buildPalette_mode (cnt : Counts) (s : State) : (buildPalette cnt s).mode = s.mode := rfl
@[simp] theorem buildPalette_width (cnt : Counts) (s : State) : (buildPalette cnt s).width = s.width := rfl
@[simp] theorem buildPalette_height (cnt : Counts) (s : State) : (buildPalette cnt s).height = s.height := rfl
@[simp] theorem buildPalette_ptr (cnt : Counts) (s : State) : (buildPalette cnt s).ptr = s.ptr := rfl
@[simp] theorem buildPalette_pix (cnt : Counts) (s : State) : (buildPalette cnt s).pix = s.pix := rfl
@[simp] theorem buildPalette_idx (cnt : Counts) (s : State) : (buildPalette cnt s).idx = s.idx := rfl
@[simp] theorem buildPalette_out (cnt : Counts) (s : State) : (buildPalette cnt s).out = s.out := rfl
@[simp] theorem buildPalette_olen (cnt : Counts) (s : State) : (buildPalette cnt s).olen = s.olen := rfl
@[simp] theorem buildPalette_err (cnt : Counts) (s : State) : (buildPalette cnt s).err = s.err := rfl
@[simp] theorem buildPalette_einfo (cnt : Counts) (s : State) : (buildPalette cnt s).einfo = s.einfo := rfl
@[simp] theorem buildPalette_epoch (cnt : Counts) (s : State) : (buildPalette cnt s).epoch = s.epoch := rfl
@[simp] theorem buildPalette_inbox (cnt : Counts) (s : State) : (buildPalette cnt s).inbox = s.inbox := rfl
@[simp] theorem buildPalette_rsps (cnt : Counts) (s : State) : (buildPalette cnt s).rsps = s.rsps := rfl
@[simp] theorem pixAt_buildPalette (cnt : Counts) (s : State) (j : Nat) : pixAt (buildPalette cnt s) j = pixAt s j := rfl
@[simp] theorem idxAt_buildPalette (cnt : Counts) (s : State) (j : Nat) : idxAt (buildPalette cnt s) j = idxAt s j := rfl
@[simp] theorem outAt_buildPalette (cnt : Counts) (s : State) (j : Nat) : outAt (buildPalette cnt s) j = outAt s j := rfl
@[simp] theorem pixelCount_buildPalette (cnt : Counts) (s : State) : pixelCount (buildPalette cnt s) = pixelCount s := rfl
@[simp] theorem pixels_buildPalette (cnt : Counts) (s : State) : pixels (buildPalette cnt s) = pixels s := rfl

/-! ## quantizePixels: the fields it leaves -/

@[simp] theorem quantizePixels_ref (s : State) : (quantizePixels s).ref = s.ref := rfl
@[simp] theorem quantizePixels_mode (s : State) : (quantizePixels s).mode = s.mode := rfl
@[simp] theorem quantizePixels_width (s : State) : (quantizePixels s).width = s.width := rfl
@[simp] theorem quantizePixels_height (s : State) : (quantizePixels s).height = s.height := rfl
@[simp] theorem quantizePixels_ptr (s : State) : (quantizePixels s).ptr = s.ptr := rfl
@[simp] theorem quantizePixels_pix (s : State) : (quantizePixels s).pix = s.pix := rfl
@[simp] theorem quantizePixels_pal (s : State) : (quantizePixels s).pal = s.pal := rfl
@[simp] theorem quantizePixels_plen (s : State) : (quantizePixels s).plen = s.plen := rfl
@[simp] theorem quantizePixels_out (s : State) : (quantizePixels s).out = s.out := rfl
@[simp] theorem quantizePixels_olen (s : State) : (quantizePixels s).olen = s.olen := rfl
@[simp] theorem quantizePixels_err (s : State) : (quantizePixels s).err = s.err := rfl
@[simp] theorem quantizePixels_einfo (s : State) : (quantizePixels s).einfo = s.einfo := rfl
@[simp] theorem quantizePixels_epoch (s : State) : (quantizePixels s).epoch = s.epoch := rfl
@[simp] theorem quantizePixels_inbox (s : State) : (quantizePixels s).inbox = s.inbox := rfl
@[simp] theorem quantizePixels_rsps (s : State) : (quantizePixels s).rsps = s.rsps := rfl
@[simp] theorem pixAt_quantizePixels (s : State) (j : Nat) : pixAt (quantizePixels s) j = pixAt s j := rfl
@[simp] theorem palAt_quantizePixels (s : State) (j : Nat) : palAt (quantizePixels s) j = palAt s j := rfl
@[simp] theorem outAt_quantizePixels (s : State) (j : Nat) : outAt (quantizePixels s) j = outAt s j := rfl
@[simp] theorem pixelCount_quantizePixels (s : State) : pixelCount (quantizePixels s) = pixelCount s := rfl
@[simp] theorem pixels_quantizePixels (s : State) : pixels (quantizePixels s) = pixels s := rfl

/-! ## packIndices: the fields it leaves -/

@[simp] theorem packIndices_ref (s : State) : (packIndices s).ref = s.ref := rfl
@[simp] theorem packIndices_mode (s : State) : (packIndices s).mode = s.mode := rfl
@[simp] theorem packIndices_width (s : State) : (packIndices s).width = s.width := rfl
@[simp] theorem packIndices_height (s : State) : (packIndices s).height = s.height := rfl
@[simp] theorem packIndices_ptr (s : State) : (packIndices s).ptr = s.ptr := rfl
@[simp] theorem packIndices_pix (s : State) : (packIndices s).pix = s.pix := rfl
@[simp] theorem packIndices_pal (s : State) : (packIndices s).pal = s.pal := rfl
@[simp] theorem packIndices_plen (s : State) : (packIndices s).plen = s.plen := rfl
@[simp] theorem packIndices_idx (s : State) : (packIndices s).idx = s.idx := rfl
@[simp] theorem packIndices_err (s : State) : (packIndices s).err = s.err := rfl
@[simp] theorem packIndices_einfo (s : State) : (packIndices s).einfo = s.einfo := rfl
@[simp] theorem packIndices_epoch (s : State) : (packIndices s).epoch = s.epoch := rfl
@[simp] theorem packIndices_inbox (s : State) : (packIndices s).inbox = s.inbox := rfl
@[simp] theorem packIndices_rsps (s : State) : (packIndices s).rsps = s.rsps := rfl
@[simp] theorem pixAt_packIndices (s : State) (j : Nat) : pixAt (packIndices s) j = pixAt s j := rfl
@[simp] theorem idxAt_packIndices (s : State) (j : Nat) : idxAt (packIndices s) j = idxAt s j := rfl
@[simp] theorem palAt_packIndices (s : State) (j : Nat) : palAt (packIndices s) j = palAt s j := rfl
@[simp] theorem pixelCount_packIndices (s : State) : pixelCount (packIndices s) = pixelCount s := rfl
@[simp] theorem pixels_packIndices (s : State) : pixels (packIndices s) = pixels s := rfl

/-! ## convertWith: the fields it leaves -/

@[simp] theorem convertWith_ref (cnt : Counts) (s : State) : (convertWith cnt s).ref = s.ref := rfl
@[simp] theorem convertWith_mode (cnt : Counts) (s : State) : (convertWith cnt s).mode = s.mode := rfl
@[simp] theorem convertWith_width (cnt : Counts) (s : State) : (convertWith cnt s).width = s.width := rfl
@[simp] theorem convertWith_height (cnt : Counts) (s : State) : (convertWith cnt s).height = s.height := rfl
@[simp] theorem convertWith_ptr (cnt : Counts) (s : State) : (convertWith cnt s).ptr = s.ptr := rfl
@[simp] theorem convertWith_pix (cnt : Counts) (s : State) : (convertWith cnt s).pix = s.pix := rfl
@[simp] theorem convertWith_err (cnt : Counts) (s : State) : (convertWith cnt s).err = s.err := rfl
@[simp] theorem convertWith_einfo (cnt : Counts) (s : State) : (convertWith cnt s).einfo = s.einfo := rfl
@[simp] theorem convertWith_epoch (cnt : Counts) (s : State) : (convertWith cnt s).epoch = s.epoch := rfl
@[simp] theorem convertWith_inbox (cnt : Counts) (s : State) : (convertWith cnt s).inbox = s.inbox := rfl
@[simp] theorem convertWith_rsps (cnt : Counts) (s : State) : (convertWith cnt s).rsps = s.rsps := rfl
@[simp] theorem pixAt_convertWith (cnt : Counts) (s : State) (j : Nat) : pixAt (convertWith cnt s) j = pixAt s j := rfl
@[simp] theorem pixelCount_convertWith (cnt : Counts) (s : State) : pixelCount (convertWith cnt s) = pixelCount s := rfl
@[simp] theorem pixels_convertWith (cnt : Counts) (s : State) : pixels (convertWith cnt s) = pixels s := rfl

/-! ## Frames -/

theorem onlyChanges_buildPalette (cnt : Counts) (s : State) : OnlyChanges [.pal, .plen] s (buildPalette cnt s) :=
  onlyChanges_installPalette _ _

theorem onlyChanges_quantizePixels (s : State) : OnlyChanges [.idx] s (quantizePixels s) := onlyChanges_installIndices _ _

theorem onlyChanges_packIndices (s : State) : OnlyChanges [.out, .olen] s (packIndices s) := onlyChanges_installImage _ _

theorem onlyChanges_convertWith (cnt : Counts) (s : State) : OnlyChanges [.pal, .plen, .idx, .out, .olen] s (convertWith cnt s) :=
  ((onlyChanges_buildPalette cnt s).trans (hs := [.pal, .plen, .idx]) (onlyChanges_quantizePixels _) (by simp) (by simp)).trans
    (onlyChanges_packIndices _) (by simp) (by simp)

/-! ## The responses do not matter to the phases -/

theorem quantizePixels_respond (d : BitVec 24) (s : State) : quantizePixels (respond d s) = respond d (quantizePixels s) := rfl

theorem packIndices_respond (d : BitVec 24) (s : State) : packIndices (respond d s) = respond d (packIndices s) := rfl

theorem firstBadIndex_respond (d : BitVec 24) (s : State) : firstBadIndex (respond d s) = firstBadIndex s := rfl

/-! ## The image -/

theorem cpm_le (m : ScreenMode) : m.cpm ≤ 16 := by cases m <;> decide

theorem two_le_ppb (m : ScreenMode) : 2 ≤ m.ppb := by cases m <;> decide

theorem pixelCount_le (s : State) : pixelCount s ≤ 961 := by
  have := s.width.isLt; have := s.height.isLt
  unfold pixelCount
  calc _ ≤ 31 * 31 := Nat.mul_le_mul (by omega) (by omega)
  _ = _ := rfl

theorem pixelCount_pos {s : State} (hc : Configured s) : 0 < pixelCount s := by
    apply Nat.mul_pos
    · rcases Nat.eq_zero_or_pos s.width.toNat with h | h
      · exact absurd (BitVec.eq_of_toNat_eq (by simpa using h)) hc.1
      · exact h
    · rcases Nat.eq_zero_or_pos s.height.toNat with h | h
      · exact absurd (BitVec.eq_of_toNat_eq (by simpa using h)) hc.2
      · exact h

theorem pixels_getElem? (s : State) (k : Nat) : (pixels s)[k]? = if k < pixelCount s then some (pixAt s k) else none := by
  unfold pixels; by_cases h : k < pixelCount s <;> simp [h]

theorem allReference_iff {s : State} : AllReference s ↔ ∀ c ∈ pixels s, IsReferenceColour s.ref c := by
  simp [AllReference, pixels]

/-! ## The counting scan -/

/-- What the counting scan gives when it succeeds: every pixel is a reference colour, and the counts have grown by the
occurrences (41_palette_builder.md R120). -/
theorem scanCounts_ok_iff (ref : RefTable) (cs : List ColourWord) (cnt0 cnt : Counts) :
    scanCounts ref cs cnt0 = .ok cnt ↔ (∀ c ∈ cs, (fwOfRgb ref c).isSome) ∧
      ∀ f : FwIndex, cnt[f] = cnt0[f] + (cs.filterMap (fwOfRgb ref)).count f := by
  revert cnt0 cnt
  induction cs with
  | nil => intro cnt0 cnt; simp [scanCounts]; constructor
           · rintro rfl f; rfl
           · intro h; apply Vector.ext; intro i hi; exact (h ⟨i, hi⟩).symm
  | cons c cs ih =>
    intro cnt0 cnt
    simp only [scanCounts]
    cases hf : fwOfRgb ref c with
    | none => simp [hf]
    | some g =>
      simp only [ih, List.forall_mem_cons, hf, List.filterMap_cons, List.count_cons, Option.isSome_some, true_and]
      constructor
      · rintro ⟨a, b⟩
        refine ⟨a, fun f => ?_⟩
        rw [b f]
        by_cases hv : (g : Nat) = f
        · have : g = f := Fin.ext hv
          subst this; simp; omega
        · have : g ≠ f := fun e => hv (congrArg _ e)
          simp [hv, this]
      · rintro ⟨a, b⟩
        refine ⟨a, fun f => ?_⟩
        rw [b f]
        by_cases hv : (g : Nat) = f
        · have : g = f := Fin.ext hv
          subst this; simp; omega
        · have : g ≠ f := fun e => hv (congrArg _ e)
          simp [hv, this]

/-- The scan stops at the first pixel that is no reference colour (41_palette_builder.md R121). -/
theorem scanCounts_error (ref : RefTable) (cs : List ColourWord) (cnt0 : Counts) (k : Nat) (c : ColourWord)
    (hk : cs[k]? = some c) (hn : ¬ IsReferenceColour ref c)
    (hj : ∀ (j : Nat) d, j < k → cs[j]? = some d → IsReferenceColour ref d) : scanCounts ref cs cnt0 = .error c := by
  induction cs generalizing cnt0 k with
  | nil => simp at hk
  | cons d cs ih =>
    cases k with
    | zero =>
      simp at hk; subst hk
      simp [scanCounts, fwOfRgb_none.mpr hn]
    | succ k =>
      have := hj 0 d (by omega) (by simp)
      rw [← fwOfRgb_isSome, Option.isSome_iff_exists] at this
      obtain ⟨f, hf⟩ := this
      simp only [scanCounts, hf]
      exact ih _ k (by simpa using hk) (fun j d hjk hd => hj (j+1) d (by omega) (by simpa using hd))

/-! ## The ranking (41_palette_builder.md R122) -/

theorem before_iff (cnt : Counts) (f g : FwIndex) : before cnt f g = true ↔ cnt[g] < cnt[f] ∨ (cnt[f] = cnt[g] ∧ g < f) := by
  simp [before]

theorem before_trans (cnt : Counts) (f g h : FwIndex) (a : before cnt f g = true) (b : before cnt g h = true) : before cnt f h = true := by
  rw [before_iff] at *
  rcases a with a | ⟨a, a'⟩ <;> rcases b with b | ⟨b, b'⟩
  · left; omega
  · left; omega
  · left; omega
  · right; exact ⟨by omega, lt_trans b' a'⟩

theorem before_tri (cnt : Counts) (f g : FwIndex) (hne : f ≠ g) : before cnt f g = true ∨ before cnt g f = true := by
  rw [before_iff, before_iff]
  have : f < g ∨ g < f := lt_or_gt_of_ne hne
  rcases Nat.lt_trichotomy cnt[f] cnt[g] with h | h | h
  · right; left; exact h
  · rcases this with h' | h'
    · right; right; exact ⟨h.symm, h'⟩
    · left; right; exact ⟨h, h'⟩
  · left; left; exact h

theorem orderedInsert_pairwise (cnt : Counts) (f : FwIndex) (l : List FwIndex) (hf : f ∉ l)
    (h : l.Pairwise fun a b => before cnt a b = true) :
    (l.orderedInsert (fun a b => before cnt a b = true) f).Pairwise fun a b => before cnt a b = true := by
  induction l with
  | nil => simp
  | cons g l ih =>
    rw [List.orderedInsert]
    rw [List.pairwise_cons] at h
    split
    · next hb =>
      rw [List.pairwise_cons]
      refine ⟨?_, by rw [List.pairwise_cons]; exact h⟩
      intro a ha
      rcases List.mem_cons.mp ha with rfl | ha
      · exact hb
      · exact before_trans cnt _ _ _ hb (h.1 a ha)
    · next hb =>
      rw [List.pairwise_cons]
      refine ⟨?_, ih (fun hm => hf (List.mem_cons_of_mem _ hm)) h.2⟩
      intro a ha
      rw [List.mem_orderedInsert] at ha
      rcases ha with rfl | ha
      · exact (before_tri cnt _ _ (fun e => hf (by rw [e]; exact List.mem_cons_self))).resolve_left hb
      · exact h.1 a ha

theorem rank_pairwise (cnt : Counts) : (rank cnt).Pairwise fun a b => before cnt a b = true := by
  unfold rank
  have hn : (usedColours cnt).Nodup := (List.nodup_finRange 27).filter _
  generalize usedColours cnt = l at hn
  induction l with
  | nil => simp
  | cons f l ih =>
    rw [List.nodup_cons] at hn
    rw [List.insertionSort_cons]
    exact orderedInsert_pairwise cnt f _ (by rw [List.mem_insertionSort]; exact hn.1) (ih hn.2)

theorem mem_rank (cnt : Counts) (f : FwIndex) : f ∈ rank cnt ↔ 0 < cnt[f] := by
  simp [rank, List.mem_insertionSort, usedColours]

theorem rank_nodup (cnt : Counts) : (rank cnt).Nodup := by
  unfold rank
  exact (List.perm_insertionSort _ _).nodup_iff.mpr ((List.nodup_finRange 27).filter _)

/-! ## After each phase -/

theorem plen_buildPalette (cnt : Counts) (s : State) : (buildPalette cnt s).plen.toNat = min (rank cnt).length s.mode.cpm := by
  have := cpm_le s.mode
  simp [buildPalette, paletteOf]; omega

theorem palAt_buildPalette (cnt : Counts) (s : State) (i : Nat) (f) (hi : i < (buildPalette cnt s).plen.toNat) (hf : (rank cnt)[i]? = some f) :
    palAt (buildPalette cnt s) i = hwOf s.ref f := by
  rw [plen_buildPalette] at hi
  apply palAt_installPalette
  simp [paletteOf, hf, show i < s.mode.cpm by omega]

@[simp] theorem palRgb_length (s : State) : (palRgb s).length = s.plen.toNat := by simp [palRgb]

theorem idxAt_quantizePixels (s : State) (k : Nat) :
    idxAt (quantizePixels s) k = if k < pixelCount s then BitVec.ofNat 4 (quantizeColour s (pixAt s k)) else idxAt s k := by
  simp only [quantizePixels, idxAt_installIndices, pixels]
  by_cases h : k < pixelCount s
  · simp [h]
  · simp [h]

theorem idxAt_convertWith (cnt : Counts) (s : State) (k : Nat) :
    idxAt (convertWith cnt s) k =
      if k < pixelCount s then BitVec.ofNat 4 (quantizeColour (buildPalette cnt s) (pixAt s k)) else idxAt s k :=
  idxAt_quantizePixels (buildPalette cnt s) k

theorem firstBadIndex_none {s : State} : firstBadIndex s = none ↔ ∀ k, k < pixelCount s → (idxAt s k).toNat < s.mode.cpm := by
  simp [firstBadIndex, List.find?_eq_none]

theorem firstBadIndex_some {s : State} {k : Nat} (hk : k < pixelCount s) (h : s.mode.cpm ≤ (idxAt s k).toNat)
    (hf : ∀ j, j < k → (idxAt s j).toNat < s.mode.cpm) : firstBadIndex s = some k := by
  unfold firstBadIndex
  rw [List.find?_range_eq_some]
  simp [hk, h]
  exact hf

theorem olen_packIndices (s : State) : (packIndices s).olen.toNat = pixelCount s / s.mode.ppb := by
  have := pixelCount_le s; have := two_le_ppb s.mode
  simp [packIndices, packedBytes]
  have : pixelCount s / s.mode.ppb ≤ 961 / 2 := Nat.div_le_div (pixelCount_le s) (two_le_ppb _) (by decide)
  omega

theorem outAt_packIndices (s : State) (j : Nat) (h : j < pixelCount s / s.mode.ppb) :
   outAt (packIndices s) j = packByte s.mode (slotIndices s j) := by
  apply outAt_installImage
  simp [packedBytes, h]

end Sys2Proof.Machine
end

