-- ==== Sys2Proof/Laws/Decode.lean ====
section
/-! SUPPORT. Laws/Decode.lean: the fields of an encoded command, and when an encoded word matches a row's mask and pattern. -/

namespace Sys2Proof

/-- Bit `n` of an encoded command: of the operand field below bit 24, of the opcode from there on (30_encoding.md R70). -/
theorem getLsbD_encode (i : Instr) (n : Nat) (h : n < 32) :
    (encode i).getLsbD n = if n < 24 then i.operandField.getLsbD n else i.opcode.getLsbD (n - 24) := by
  by_cases h2 : n < 24
  · simp [encode, h, h2]
  · simp [encode, h, h2, BitVec.getLsbD_of_ge i.operandField n (by omega)]

theorem opcodeOf_encode (i : Instr) : opcodeOf (encode i) = i.opcode := by
  apply BitVec.eq_of_getLsbD_eq
  intro n hn
  rw [opcodeOf, BitVec.getLsbD_extractLsb', getLsbD_encode i _ (by omega)]
  simp [hn]

theorem operandOf_encode (i : Instr) : operandOf (encode i) = i.operandField := by
  apply BitVec.eq_of_getLsbD_eq
  intro n hn
  rw [operandOf, BitVec.getLsbD_extractLsb', getLsbD_encode i _ (by omega)]
  simp [hn]

/-- An encoded command masks to a pattern when each of the 32 bits does. -/
theorem encode_and_mask (i : Instr) (mask pattern : Word)
    (h : ∀ n, n < 32 → ((if n < 24 then i.operandField.getLsbD n else i.opcode.getLsbD (n - 24)) && mask.getLsbD n) =
      pattern.getLsbD n) : encode i &&& mask = pattern := by
  apply BitVec.eq_of_getLsbD_eq
  intro n hn
  rw [← h n hn, BitVec.getLsbD_and, getLsbD_encode i n hn]

end Sys2Proof
end

