-- ==== Sys2Proof/Laws/Exec.lean ====
section
/-! SUPPORT. Laws/Exec.lean: everything a command and a step can end in, said once: later proofs split on these lemmas and do not
unfold `exec` and `step`. -/

namespace Sys2Proof.Machine

/-- No meaning stops. -/
theorem exec_next (i s) : ∃ t, exec i s = .next t := by cases i <;> exact ⟨_, rfl⟩

/-- `regWord` is defined exactly for the registers 0..6 (10_state.md R31). -/
theorem regWord_isSome (s : State) (r : Nibble) : (regWord s r).isSome = decide (r.toNat ≤ 6) := by
  have hr : r.toNat < 16 := r.isLt
  unfold regWord
  generalize r.toNat = n at hr
  interval_cases n <;> rfl

/-- The three ends of a command: it responds (in READY, or as one of the commands FAULTED accepts; only CLRERR then changes ERR
or EINFO), it traps from READY with a cause of its own, or FAULTED rejects it (30_encoding.md R79). -/
theorem exec_cases (i : Instr) (s t : State) (h : exec i s = .next t) :
    (∃ d u, t = respond d u ∧ u.rsps = s.rsps ∧ u.inbox = s.inbox ∧ (s.err = 0 ∨ acceptedInFaulted i = true) ∧
      (u.err = s.err ∧ u.einfo = s.einfo ∨ i = .clrerr)) ∨
    (s.err = 0 ∧ ∃ c ∈ mayRaise i, ∃ d, t = raise c d s) ∨ (s.err ≠ 0 ∧ t = reject s ∧ acceptedInFaulted i = false) := by
  by_cases hr : s.err = 0
  · cases i with
    | nop => injection h with h; exact .inl ⟨0, s, h.symm, rfl, rfl, .inl hr, .inl ⟨rfl, rfl⟩⟩
    | clrerr => injection h with h; exact .inl ⟨0, _, h.symm, rfl, rfl, .inl hr, .inr rfl⟩
    | rdreg r =>
      simp only [exec, execRdreg, whenReady_ready hr] at h
      injection h with h
      split at h
      · exact .inl ⟨_, s, h.symm, rfl, rfl, .inl hr, .inl ⟨rfl, rfl⟩⟩
      · exact .inr (.inl ⟨hr, _, by simp [mayRaise], _, h.symm⟩)
    | _ =>
      simp only [exec, execSetmode, execSetdim, execSetptr, execClrpal, execWrpix, execPushpal, execWridx, execRdpix, execRdpal, execRdidx, execRdout,
        execBuildpal, execQuant, execQuant1, execPack, execConvert, whenReady_ready hr, raisePointer] at h
      injection h with h
      repeat' split at h
      all_goals first
        | exact .inl ⟨_, _, h.symm, rfl, rfl, .inl hr, .inl ⟨rfl, rfl⟩⟩
        | exact .inr (.inl ⟨hr, _, by simp [mayRaise], _, h.symm⟩)
  · cases i with
    | nop => injection h with h; exact .inl ⟨0, s, h.symm, rfl, rfl, .inr rfl, .inl ⟨rfl, rfl⟩⟩
    | clrerr => injection h with h; exact .inl ⟨0, _, h.symm, rfl, rfl, .inr rfl, .inr rfl⟩
    | rdreg r =>
      simp only [exec, execRdreg, whenReady_faulted hr] at h
      injection h with h
      have key : (regWord s r).isSome = decide (r.toNat ≤ 6) := by
        exact regWord_isSome s r
      split at h
      · next hs => exact .inl ⟨_, s, h.symm, rfl, rfl, .inr (by simp [hs] at key; simp [acceptedInFaulted, key]), .inl ⟨rfl, rfl⟩⟩
      · next hs => refine .inr (.inr ⟨hr, h.symm, by simp [hs] at key; simp [acceptedInFaulted, key]⟩)
    | _ =>
      simp only [exec, execSetmode, execSetdim, execSetptr, execClrpal, execWrpix, execPushpal, execWridx, execRdpix, execRdpal, execRdidx, execRdout,
        execBuildpal, execQuant, execQuant1, execPack, execConvert, whenReady_faulted hr] at h
      injection h with h
      exact .inr (.inr ⟨hr, h.symm, rfl⟩)

/-- The two ends of an illegal word (30_encoding.md R79). -/
theorem illegalWord_cases (cmd : Word) (s : State) :
    (s.err = 0 ∧ illegalWord cmd s = raise .illegalCommand ((opcodeOf cmd).setWidth 24) s) ∨ (s.err ≠ 0 ∧ illegalWord cmd s = reject s) := by
  unfold illegalWord
  by_cases h : s.err = 0
  · exact .inl ⟨h, whenReady_ready h _⟩
  · exact .inr ⟨h, whenReady_faulted h _⟩

/-- The four kinds of step: idle, the hardware reset, a command, an illegal word. -/
theorem step_cases (s t : State) (h : step s = .next t) :
   (s.inbox = [] ∧ t = s) ∨ (∃ rest, s.inbox = .reset :: rest ∧ t = hardwareReset { s with inbox := rest }) ∨
   (∃ cmd rest i, s.inbox = .command cmd :: rest ∧ decode cmd = .ok i ∧ exec i { s with inbox := rest } = .next t) ∨
   (∃ cmd rest e, s.inbox = .command cmd :: rest ∧ decode cmd = .error e ∧ t = illegalWord cmd { s with inbox := rest }) := by
  unfold step at h
  cases hb : s.inbox with
  | nil => simp only [takeEvent, hb, idle] at h; injection h with h; exact .inl ⟨rfl, h.symm⟩
  | cons e rest =>
    simp only [takeEvent, hb] at h
    cases e with
    | reset => injection h with h; exact .inr (.inl ⟨rest, rfl, h.symm⟩)
    | command cmd =>
      simp only [runEvent, runWord] at h
      cases hd : decode cmd with
      | ok i => simp only [hd] at h; exact .inr (.inr (.inl ⟨cmd, rest, i, rfl, hd, h⟩))
      | error e => simp only [hd] at h; injection h with h; exact .inr (.inr (.inr ⟨cmd, rest, e, rfl, hd, h.symm⟩))

end Sys2Proof.Machine
end

