-- ==== Sys2Proof/Laws/PerInstr.lean ====
section
/-! SUPPORT. Laws/PerInstr.lean: the family of per-command statements MatchesItsRow: an encoded command, with any operand values,
matches its row of the command table (30_encoding.md R73), so its reserved bits are 0 (R71) and its opcode is the row's. -/

namespace Sys2Proof.Laws

/-- The command's encoding matches a row of the table that has its opcode. -/
def MatchesItsRow.Statement (i : Instr) : Prop :=
  ∃ row ∈ commandTable, encode i &&& row.mask = row.pattern ∧ opcodeOf row.pattern = i.opcode

theorem MatchesItsRow.nop : MatchesItsRow.Statement .nop :=
  ⟨_, List.getElem_mem (l := commandTable) (n := 0) (by decide), by decide, by decide⟩

theorem MatchesItsRow.setmode (m : BitVec 2) : MatchesItsRow.Statement (.setmode m) :=
  ⟨_, List.getElem_mem (l := commandTable) (n := 1) (by decide), encode_and_mask _ _ _ (by
    intro n hn; interval_cases n <;> simp [Instr.operandField, Instr.opcode, commandTable]), rfl⟩

theorem MatchesItsRow.setdim (w h : BitVec 8) : MatchesItsRow.Statement (.setdim w h) :=
  ⟨_, List.getElem_mem (l := commandTable) (n := 2) (by decide), encode_and_mask _ _ _ (by
    intro n hn; interval_cases n <;> simp [Instr.operandField, Instr.opcode, commandTable]), rfl⟩

theorem MatchesItsRow.setptr (p : BitVec 10) : MatchesItsRow.Statement (.setptr p) :=
  ⟨_, List.getElem_mem (l := commandTable) (n := 3) (by decide), encode_and_mask _ _ _ (by
    intro n hn; interval_cases n <;> simp [Instr.operandField, Instr.opcode, commandTable]), rfl⟩

theorem MatchesItsRow.clrpal : MatchesItsRow.Statement .clrpal :=
  ⟨_, List.getElem_mem (l := commandTable) (n := 4) (by decide), by decide, by decide⟩

theorem MatchesItsRow.wrpix (c : ColourWord) : MatchesItsRow.Statement (.wrpix c) :=
  ⟨_, List.getElem_mem (l := commandTable) (n := 5) (by decide), encode_and_mask _ _ _ (by
    intro n hn; interval_cases n <;> simp [Instr.operandField, Instr.opcode, commandTable]), rfl⟩

theorem MatchesItsRow.pushpal (b : Byte) : MatchesItsRow.Statement (.pushpal b) :=
  ⟨_, List.getElem_mem (l := commandTable) (n := 6) (by decide), encode_and_mask _ _ _ (by
    intro n hn; interval_cases n <;> simp [Instr.operandField, Instr.opcode, commandTable]), rfl⟩

theorem MatchesItsRow.wridx (v : Nibble) : MatchesItsRow.Statement (.wridx v) :=
  ⟨_, List.getElem_mem (l := commandTable) (n := 7) (by decide), encode_and_mask _ _ _ (by
    intro n hn; interval_cases n <;> simp [Instr.operandField, Instr.opcode, commandTable]), rfl⟩

theorem MatchesItsRow.rdpix : MatchesItsRow.Statement .rdpix :=
  ⟨_, List.getElem_mem (l := commandTable) (n := 8) (by decide), by decide, by decide⟩

theorem MatchesItsRow.rdpal (i : Nibble) : MatchesItsRow.Statement (.rdpal i) :=
  ⟨_, List.getElem_mem (l := commandTable) (n := 9) (by decide), encode_and_mask _ _ _ (by
    intro n hn; interval_cases n <;> simp [Instr.operandField, Instr.opcode, commandTable]), rfl⟩

theorem MatchesItsRow.rdidx : MatchesItsRow.Statement .rdidx :=
  ⟨_, List.getElem_mem (l := commandTable) (n := 10) (by decide), by decide, by decide⟩

theorem MatchesItsRow.rdout : MatchesItsRow.Statement .rdout :=
  ⟨_, List.getElem_mem (l := commandTable) (n := 11) (by decide), by decide, by decide⟩

theorem MatchesItsRow.rdreg (r : Nibble) : MatchesItsRow.Statement (.rdreg r) :=
  ⟨_, List.getElem_mem (l := commandTable) (n := 12) (by decide), encode_and_mask _ _ _ (by
    intro n hn; interval_cases n <;> simp [Instr.operandField, Instr.opcode, commandTable]), rfl⟩

theorem MatchesItsRow.buildpal : MatchesItsRow.Statement .buildpal :=
  ⟨_, List.getElem_mem (l := commandTable) (n := 13) (by decide), by decide, by decide⟩

theorem MatchesItsRow.quant : MatchesItsRow.Statement .quant :=
  ⟨_, List.getElem_mem (l := commandTable) (n := 14) (by decide), by decide, by decide⟩

theorem MatchesItsRow.quant1 (c : ColourWord) : MatchesItsRow.Statement (.quant1 c) :=
  ⟨_, List.getElem_mem (l := commandTable) (n := 15) (by decide), encode_and_mask _ _ _ (by
    intro n hn; interval_cases n <;> simp [Instr.operandField, Instr.opcode, commandTable]), rfl⟩

theorem MatchesItsRow.pack : MatchesItsRow.Statement .pack :=
  ⟨_, List.getElem_mem (l := commandTable) (n := 16) (by decide), by decide, by decide⟩

theorem MatchesItsRow.convert : MatchesItsRow.Statement .convert :=
  ⟨_, List.getElem_mem (l := commandTable) (n := 17) (by decide), by decide, by decide⟩

theorem MatchesItsRow.clrerr : MatchesItsRow.Statement .clrerr :=
  ⟨_, List.getElem_mem (l := commandTable) (n := 18) (by decide), by decide, by decide⟩

end Sys2Proof.Laws
end

