-- ==== Sys2Proof/Machine/HostEmitter.lean ====
section
/-! DEFINITION. Machine/HostEmitter.lean: the numeric rules of the host-side code emitter (48_host_emitter.md R181 to R186).
It is host software, outside the block ("None of these rules is a rule of the block"): no command and no step calls anything
of this file. The text of the emitted lines is not in the source (91 N8) and is not modelled (log 13). -/

namespace Sys2Proof.Machine

/-- Values per line of the C and assembly bodies: `min(16, width / pixelsPerByte(mode))` (R181). -/
def emitterWrap (s : State) : Nat := min 16 (s.width.toNat / s.mode.ppb)

/-- BASIC emission's precondition, width and height multiples of 8; otherwise the emitter fails with its own DimensionError
before any line (R186). -/
def basicAccepts (s : State) : Bool := s.width.toNat % 8 == 0 && s.height.toNat % 8 == 0

/-- `cursorsWide = width/8` (R184). -/
def cursorsWide (s : State) : Nat := s.width.toNat / 8

/-- `cursorsTall = height/8` (R184). -/
def cursorsTall (s : State) : Nat := s.height.toNat / 8

/-- The `SYMBOL AFTER` threshold `256 - (paletteSize * cursorsWide * cursorsTall)` (R184). -/
def symbolThreshold (s : State) : Nat := 256 - s.plen.toNat * cursorsWide s * cursorsTall s

/-- The symbol number of colour `i` and cursor `(cx, cy)`: `T + i*cw*ch + cy*cw + cx` (R184). -/
def symbolNumber (s : State) (i cx cy : Nat) : Nat :=
  symbolThreshold s + i * cursorsWide s * cursorsTall s + cy * cursorsWide s + cx

/-- Row `r` of the symbol of colour `i` and cursor `(cx, cy)`: bit `7-k` is set when the pixel at column `k` has index `i`
(R185). -/
def symbolRow (s : State) (i cx cy r : Nat) : Byte :=
  (List.range 8).foldl
    (fun acc k =>
      if (idxAt s ((cy * 8 + r) * s.width.toNat + cx * 8 + k)).toNat = i then acc ||| ((1 : Byte) <<< (7 - k)) else acc) 0

end Sys2Proof.Machine
end

