-- ==== Sys2Proof/Tests/Slice0.lean ====
section
/-! SUPPORT. Tests/Slice0.lean: decoding of words written out field by field from the spec's formats, the smoke test of
WellFormed, small tests of one step with results from the spec's vectors (95_test_vectors.md), and for every statement with
hypotheses a state and operands that meet them. -/

namespace Sys2Proof.Tests

open Sys2Proof.Machine

/-! ## States -/

/-- The example table `REF_CPC` of 93_implementation_defined.md G1, which the vectors marked [REF_CPC] use. -/
def refCpc : RefTable :=
  ⟨#[⟨0x000000, 0x54⟩, ⟨0x000080, 0x44⟩, ⟨0x0000FF, 0x55⟩, ⟨0x800000, 0x5C⟩, ⟨0x800080, 0x58⟩, ⟨0x8000FF, 0x5D⟩,
    ⟨0xFF0000, 0x4C⟩, ⟨0xFF0080, 0x45⟩, ⟨0xFF00FF, 0x4D⟩, ⟨0x008000, 0x56⟩, ⟨0x008080, 0x46⟩, ⟨0x0080FF, 0x57⟩,
    ⟨0x808000, 0x5E⟩, ⟨0x808080, 0x40⟩, ⟨0x8080FF, 0x5F⟩, ⟨0xFF8000, 0x4E⟩, ⟨0xFF8080, 0x47⟩, ⟨0xFF80FF, 0x4F⟩,
    ⟨0x00FF00, 0x52⟩, ⟨0x00FF80, 0x42⟩, ⟨0x00FFFF, 0x53⟩, ⟨0x80FF00, 0x5A⟩, ⟨0x80FF80, 0x59⟩, ⟨0x80FFFF, 0x5B⟩,
    ⟨0xFFFF00, 0x4A⟩, ⟨0xFFFF80, 0x43⟩, ⟨0xFFFFFF, 0x4B⟩], by decide⟩

/-- After reset, with the example table. -/
def ready : State := { State.reset with ref := refCpc }

/-- FAULTED after an UnsupportedColor trap of colour 0x123456 (program PG5). -/
def faulted : State := { ready with err := 1, einfo := 0x123456 }

/-- An image of the mode, size and pixels. -/
def imageOf (m : ScreenMode) (w h : BitVec 5) (cs : List ColourWord) : State :=
  { ready with mode := m, width := w, height := h, pix := Memory.ofList cs }

/-- The image of program PG4: four colours, all counts 1. -/
def image : State := imageOf .mode1 4 1 [0x800000, 0x008000, 0x000080, 0x00FFFF]

/-- The image of program PG4 with its pixels in another order. -/
def imagePermuted : State := imageOf .mode1 4 1 [0x00FFFF, 0x800000, 0x000080, 0x008000]

/-- The image of program PG3: three colours in mode 2. -/
def overflowing : State :=
  imageOf .mode2 8 1 [0x000000, 0x000000, 0xFFFFFF, 0x808080, 0xFFFFFF, 0x000000, 0xFFFFFF, 0x000000]

/-- An image whose pixel 1 is no reference colour. -/
def unsupported : State := imageOf .mode1 4 1 [0x800000, 0x123456, 0x000080, 0x654321]

/-- A palette of black and bright white in mode 2, and the image of QUANT's example (42_quantizer.md R138). -/
def withPalette : State :=
  { imageOf .mode2 2 1 [0x808080, 0x000000] with pal := Memory.ofList [0x54, 0x4B], plen := 2 }

/-- The indices of program PG1. -/
def withIndices : State := { ready with mode := .mode1, width := 4, height := 1, idx := Memory.ofList [0, 1, 2, 3] }

/-- A packed image of one byte, READY (the example of 40_config_and_data.md R101). -/
def packed : State := { ready with out := Memory.ofList [0x35], olen := 1 }

/-- The same with PTR at OLEN: the next RDOUT traps (the second RDOUT of that example). -/
def packedAtEnd : State := { packed with ptr := 1 }

/-- The state after a command. -/
def after (i : Instr) (s : State) : State :=
  match exec i s with
  | .next t => t
  | .fault _ => s
  | .refused _ => s

/-- The state after a step. -/
def stepped (s : State) : State :=
  match step s with
  | .next t => t
  | .fault _ => s
  | .refused _ => s

/-- The last response. -/
def response (s : State) : Word := s.rsps.getLastD 0

theorem test_refCpc_wellFormed : refCpc.WellFormed := by decide

/-! ## Decoding: words assembled from the formats of 30_encoding.md R71 and the opcodes of R73 -/

theorem test_decode_nop : decode (0x00#8 ++ 0#24) = .ok .nop := by decide
theorem test_decode_setmode : decode (0x01#8 ++ 0#22 ++ 2#2) = .ok (.setmode 2) := by decide
theorem test_decode_setdim : decode (0x02#8 ++ 0#8 ++ 1#8 ++ 4#8) = .ok (.setdim 4 1) := by decide
theorem test_decode_setptr : decode (0x03#8 ++ 0#14 ++ 575#10) = .ok (.setptr 575) := by decide
theorem test_decode_clrpal : decode (0x04#8 ++ 0#24) = .ok .clrpal := by decide
theorem test_decode_wrpix : decode (0x10#8 ++ 0xFF#8 ++ 0x80#8 ++ 0x00#8) = .ok (.wrpix 0xFF8000) := by decide
theorem test_decode_pushpal : decode (0x11#8 ++ 0#16 ++ 0x54#8) = .ok (.pushpal 0x54) := by decide
theorem test_decode_wridx : decode (0x12#8 ++ 0#20 ++ 3#4) = .ok (.wridx 3) := by decide
theorem test_decode_rdpix : decode (0x18#8 ++ 0#24) = .ok .rdpix := by decide
theorem test_decode_rdpal : decode (0x19#8 ++ 0#20 ++ 2#4) = .ok (.rdpal 2) := by decide
theorem test_decode_rdidx : decode (0x1A#8 ++ 0#24) = .ok .rdidx := by decide
theorem test_decode_rdout : decode (0x1B#8 ++ 0#24) = .ok .rdout := by decide
theorem test_decode_rdreg : decode (0x1C#8 ++ 0#20 ++ 9#4) = .ok (.rdreg 9) := by decide
theorem test_decode_buildpal : decode (0x20#8 ++ 0#24) = .ok .buildpal := by decide
theorem test_decode_quant : decode (0x21#8 ++ 0#24) = .ok .quant := by decide
theorem test_decode_quant1 : decode (0x22#8 ++ 0x7F#8 ++ 0x00#8 ++ 0x01#8) = .ok (.quant1 0x7F0001) := by decide
theorem test_decode_pack : decode (0x23#8 ++ 0#24) = .ok .pack := by decide
theorem test_decode_convert : decode (0x24#8 ++ 0#24) = .ok .convert := by decide
theorem test_decode_clrerr : decode (0x3F#8 ++ 0#24) = .ok .clrerr := by decide

/-- V52, V55, V57, V59, V61, V63: one reserved bit set, per format. -/
theorem test_decode_reserved :
    decode 0x00000001 = .error (.reservedBitSet 0x00) ∧ decode 0x01000004 = .error (.reservedBitSet 0x01) ∧
      decode 0x02010101 = .error (.reservedBitSet 0x02) ∧ decode 0x03000400 = .error (.reservedBitSet 0x03) ∧
      decode 0x11000154 = .error (.reservedBitSet 0x11) ∧ decode 0x1C000010 = .error (.reservedBitSet 0x1C) := by decide

/-- V64, V65: opcodes that no row has. -/
theorem test_decode_undefined :
    decode 0x05000000 = .error (.undefinedOpcode 0x05) ∧ decode 0xFF000000 = .error (.undefinedOpcode 0xFF) := by decide

/-- V56 through the host's entry point. -/
theorem test_decodeTableWord : decodeTableWord 32 0x02000104 = some (.setdim 4 1) := by decide

/-! ## WellFormed refuses an ill-formed term of each check -/

theorem test_wellFormed_setmode : (Instr.setmode 3).wellFormed = false ∧ (Instr.setmode 2).wellFormed = true := by decide
theorem test_wellFormed_setdim_low : (Instr.setdim 0 1).wellFormed = false ∧ (Instr.setdim 1 0).wellFormed = false := by decide
theorem test_wellFormed_setdim_high :
    (Instr.setdim 25 8).wellFormed = false ∧ (Instr.setdim 8 25).wellFormed = false ∧
      (Instr.setdim 24 24).wellFormed = true := by decide
theorem test_wellFormed_rdreg : (Instr.rdreg 7).wellFormed = false ∧ (Instr.rdreg 6).wellFormed = true := by decide

/-! ## One step, with the responses of 95_test_vectors.md -/

/-- V70. -/
theorem test_nop : stepped (ready.withFetchWord 32 0x00000000) = { ready with rsps := [0x00000000] } := by decide

/-- V71. -/
theorem test_setmode : after (.setmode 1) ready = { ready with mode := .mode1, rsps := [0x00000000] } := by decide

/-- V72. -/
theorem test_setmode_trap :
    after (.setmode 3) ready = { ready with err := 4, einfo := 3, rsps := [0x40000003] } := by decide

/-- V73. -/
theorem test_setdim : after (.setdim 4 1) ready = { ready with width := 4, height := 1, rsps := [0x00000000] } := by decide

/-- V75. -/
theorem test_setdim_trap : response (after (.setdim 25 8) ready) = 0x20000819 := by decide

/-- V89. -/
theorem test_setptr : after (.setptr 1023) ready = { ready with ptr := 1023, rsps := [0x00000000] } := by decide

/-- 40_config_and_data.md R94, then V82. -/
theorem test_clrpal : response (after (.rdpal 0) (after .clrpal withPalette)) = 0x70000000 := by decide

/-- V87. -/
theorem test_wrpix :
    after (.wrpix 0xFFFFFF) { ready with ptr := 575 } =
      { ready with ptr := 576, pix := [(575, 0xFFFFFF)], rsps := [0x00000000] } := by decide

/-- V88. -/
theorem test_wrpix_trap :
    after (.wrpix 0) { ready with ptr := 576 } =
      { ready with ptr := 576, err := 7, einfo := 0x240, rsps := [0x70000240] } := by decide

/-- V100. -/
theorem test_pushpal :
    after (.pushpal 0x54) ready = { ready with pal := [(0, 0x54)], plen := 1, rsps := [0x00000000] } := by decide

/-- V101, and V102's 17th push. -/
theorem test_pushpal_trap :
    response (after (.pushpal 0x00) ready) = 0x40000000 ∧
      response (after (.pushpal 0x54) { ready with plen := 16 }) = 0x60000010 := by decide

/-- The example of 40_config_and_data.md R97. -/
theorem test_wridx :
    after (.wridx 3) { ready with ptr := 2 } = { ready with ptr := 3, idx := [(2, 3)], rsps := [0x00000000] } := by decide

/-- The example of 40_config_and_data.md R98. -/
theorem test_rdpix :
    after .rdpix { ready with pix := [(0, 0xFF8000)] } =
      { ready with pix := [(0, 0xFF8000)], ptr := 1, rsps := [0x00FF8000] } := by decide

/-- The example of 40_config_and_data.md R99. -/
theorem test_rdpal :
    response (after (.rdpal 1) withPalette) = 0x0000004B ∧ response (after (.rdpal 2) withPalette) = 0x70000002 := by decide

/-- The example of 40_config_and_data.md R100. -/
theorem test_rdidx :
    after .rdidx { ready with ptr := 5, idx := [(5, 2)] } =
      { ready with ptr := 6, idx := [(5, 2)], rsps := [0x00000002] } := by decide

/-- The example of 40_config_and_data.md R101, first RDOUT. -/
theorem test_rdout : after .rdout packed = { packed with ptr := 1, rsps := [0x00000035] } := by decide

/-- The example of 40_config_and_data.md R101, second RDOUT. -/
theorem test_rdout_trap :
    after .rdout { packed with ptr := 1 } = { ready with ptr := 1, err := 7, einfo := 1, rsps := [0x70000001] } := by decide

/-- V73 and V90. -/
theorem test_rdreg :
    response (after (.rdreg 1) (after (.setdim 4 1) ready)) = 0x00000104 ∧
      response (after (.rdreg 9) ready) = 0x40000009 := by decide

/-- PG5: in FAULTED, EINFO can be read and register 9 is rejected. -/
theorem test_rdreg_faulted :
    response (after (.rdreg 6) faulted) = 0x00123456 ∧ response (after (.rdreg 9) faulted) = 0xF0000001 := by decide

/-- PG4: all counts 1, so descending firmware index. -/
theorem test_buildpal :
    after .buildpal image =
      { image with pal := [(0, 0x53), (1, 0x56), (2, 0x5C), (3, 0x44)], plen := 4, rsps := [0x00000004] } := by decide

/-- PG3: the cut at the capacity. -/
theorem test_buildpal_overflow :
    (after .buildpal overflowing).pal = [(0, 0x54), (1, 0x4B)] := by decide

/-- The example of 42_quantizer.md R138. -/
theorem test_quant : (after .quant withPalette).idx = [(0, 1), (1, 0)] := by decide

/-- V85. -/
theorem test_quant_trap : response (after .quant image) = 0x60000000 := by decide

/-- V103, V104. -/
theorem test_quant1 :
    response (after (.quant1 0x808080) withPalette) = 0x00000001 ∧
      response (after (.quant1 0x7F7F7F) withPalette) = 0x00000000 := by decide

/-- V86. -/
theorem test_quant1_trap : response (after (.quant1 0x808080) ready) = 0x60000000 := by decide

/-- EX3, the document's scenario. -/
theorem test_pack : after .pack withIndices = { withIndices with out := [(0, 0x35)], olen := 1, rsps := [0x00000001] } := by decide

/-- V110 (the index out of range) and V84 (the width). -/
theorem test_pack_trap :
    response (after .pack { ready with mode := .mode2, width := 8, height := 1, idx := Memory.ofList [0, 1, 0, 1, 2, 0, 0, 0] }) =
        0x50020004 ∧
      response (after .pack { withIndices with mode := .mode2 }) = 0x20000104 := by decide

/-- PG3: palette, indices and byte of the overflowing image. -/
theorem test_convert :
    after .convert overflowing =
      { overflowing with
        pal := [(0, 0x54), (1, 0x4B)], plen := 2
        idx := [(0, 0), (1, 0), (2, 1), (3, 1), (4, 1), (5, 0), (6, 1), (7, 0)]
        out := [(0, 0x3A)], olen := 1, rsps := [0x00000001] } := by decide

/-- R171 and PG5's cause: the trap reports the first unsupported pixel and writes nothing. -/
theorem test_convert_trap :
    after .convert unsupported = { unsupported with err := 1, einfo := 0x123456, rsps := [0x10123456] } := by decide

/-- PG5. -/
theorem test_clrerr : after .clrerr faulted = { ready with rsps := [0x00000000] } := by decide

/-- PG5: FAULTED rejects a write. -/
theorem test_rejected : after (.wrpix 0) faulted = { faulted with rsps := [0xF0000001] } := by decide

/-- V78 and, in FAULTED, PG5's illegal word. -/
theorem test_illegal :
    stepped (ready.withFetchWord 32 0x05000000) = { ready with err := 3, einfo := 5, rsps := [0x30000005] } ∧
      stepped (faulted.withFetchWord 32 0xFF000000) = { faulted with rsps := [0xF0000001] } := by decide

/-- 70_reset_and_hazards.md R230: registers 0, array contents unspecified anew. -/
theorem test_reset :
    stepped { withPalette with inbox := [.reset], ptr := 9, err := 7 } = { ready with epoch := 1 } := by decide

/-! ## The functions of the compute commands -/

/-- V2, V3, V4, V6. -/
theorem test_dist :
    colourDist 0x000000 0xFFFFFF = 765 ∧ colourDist 0x808080 0x000000 = 384 ∧ colourDist 0x808080 0xFFFFFF = 381 ∧
      colourDist 0x123456 0x654321 = 151 := by decide

/-- V9 (both orders) and V10. -/
theorem test_nearest :
    nearest 0x000080 [0x008000, 0x800000] = 0 ∧ nearest 0x000080 [0x800000, 0x008000] = 0 ∧
      nearest 0xFFFFFF [0x000000, 0x000000, 0xFFFFFF] = 2 := by decide

/-- V19, V22, V29. -/
theorem test_packByte :
    packByte .mode2 [1, 0, 1, 0, 1, 0, 1, 0] = 0xAA ∧ packByte .mode1 [0, 1, 2, 3] = 0x35 ∧
      packByte .mode1 [2, 1, 3, 0] = 0xA6 := by decide

/-- V33 to V41 and V43: each bit of mode 0. -/
theorem test_packByte_mode0 :
    packByte .mode0 [1, 0] = 0x80 ∧ packByte .mode0 [0, 1] = 0x40 ∧ packByte .mode0 [2, 0] = 0x08 ∧
      packByte .mode0 [0, 2] = 0x04 ∧ packByte .mode0 [4, 0] = 0x20 ∧ packByte .mode0 [0, 4] = 0x10 ∧
      packByte .mode0 [8, 0] = 0x02 ∧ packByte .mode0 [0, 8] = 0x01 ∧ packByte .mode0 [5, 10] = 0xA5 ∧
      packByte .mode0 [3, 12] = 0x99 := by decide

/-- V47. -/
theorem test_unpackSlot :
    (List.range 8).map (unpackSlot .mode2 0x35) = [0, 0, 1, 1, 0, 1, 0, 1] ∧
      (List.range 4).map (unpackSlot .mode1 0x35) = [0, 1, 2, 3] ∧
      (List.range 2).map (unpackSlot .mode0 0x35) = [4, 14] := by decide

/-- V131, V132 of the emitter's thresholds and symbol numbers. -/
theorem test_symbolNumbers :
    (symbolNumber { ready with width := 16, height := 8, plen := 2 } 1 0 0 = 254 ∧
      symbolNumber { ready with width := 16, height := 8, plen := 2 } 1 1 0 = 255) ∧
      symbolThreshold { ready with width := 24, height := 24, plen := 16 } = 112 := by decide

/-- V133, V134, V135. -/
theorem test_emitterRows :
    symbolRow { ready with width := 8, height := 8, idx := Memory.ofList [0, 0, 1, 1, 1, 0, 1, 0] } 1 0 0 0 = 0x3A ∧
      symbolRow { ready with width := 8, height := 8, idx := Memory.ofList [0, 0, 1, 1, 1, 0, 1, 0] } 0 0 0 0 = 0xC5 ∧
      emitterWrap { ready with mode := .mode1, width := 8, height := 8 } = 2 ∧
      emitterWrap { ready with width := 24, height := 8 } = 12 ∧ basicAccepts { ready with width := 12, height := 8 } = false := by
  decide

/-- 48_host_emitter.md R188: threshold and symbol number 255, every row 255. -/
theorem test_hostEmitter :
    symbolThreshold { ready with width := 8, height := 8, plen := 1 } = 255 ∧
      symbolNumber { ready with width := 8, height := 8, plen := 1 } 0 0 0 = 255 ∧
      symbolRow { ready with width := 8, height := 8, idx := Memory.ofList (List.replicate 8 0) } 0 0 0 0 = 255 := by decide

/-! ## Witnesses: for every statement with hypotheses, a state and operands that meet them all, clause by clause -/

theorem witness_WordOfACommandIsItsEncoding : decode 0x02000104 = .ok (.setdim 4 1) := by decide

theorem witness_DecoderFollowsMatchAndMask : commandTable[2] ∈ commandTable ∧ 0x02000104 &&& commandTable[2].mask = commandTable[2].pattern :=
  ⟨List.getElem_mem _, by decide⟩

theorem witness_IllegalOperandValuesTrap :
    Ready ready ∧ (Instr.setmode 3).wellFormed = false ∧ (Instr.setdim 0 25).wellFormed = false ∧
      (Instr.rdreg 7).wellFormed = false := ⟨rfl, by decide⟩

theorem witness_StepRunsTheDecodedCommand :
    (ready.withFetchWord 32 0x02000104).inbox = [.command 0x02000104] ∧ decode 0x02000104 = .ok (.setdim 4 1) := by decide

theorem witness_IllegalWordTrapsOrIsRejected :
    (∀ row ∈ commandTable, (0x05000000 : Word) &&& row.mask ≠ row.pattern) ∧
      (ready.withFetchWord 32 0x05000000).inbox = [.command 0x05000000] ∧ (ready.withFetchWord 32 0x05000000).err = 0 ∧
      (faulted.withFetchWord 32 0x05000000).inbox = [.command 0x05000000] ∧
      (faulted.withFetchWord 32 0x05000000).err ≠ 0 := by decide

theorem witness_HardwareResetClearsTheBlock : ({ withPalette with inbox := [.reset] } : State).inbox = .reset :: [] := rfl

theorem witness_IdleBlockRetainsItsState : ready.inbox = [] := rfl

theorem witness_OneWellFormedResponsePerWord :
    (faulted.withFetchWord 32 0x1B000000).inbox = .command 0x1B000000 :: [] := by decide

/-- A state with the invariant in which every array and register is in use. -/
def inUse : State :=
  { withPalette with
    ptr := 576, idx := Memory.ofList [1, 0], out := Memory.ofList [0x80], olen := 1, inbox := [.command 0x24000000] }

theorem witness_invariant : inUse.Inv where
  refWellFormed := test_refCpc_wellFormed
  widthInRange := by decide
  heightInRange := by decide
  bothConfigured := by decide
  pixCanonical := by decide
  idxCanonical := by decide
  plenInRange := by decide
  palCanonical := by decide
  palDefined := by decide
  palValid := by decide
  olenInRange := by decide
  outCanonical := by decide
  outDefined := by decide
  errInRange := by decide
  readyClears := by decide
  faultedEmpty := by decide

theorem witness_EveryStepKeepsTheInvariant : inUse.Inv ∧ ∃ t, step inUse = .next t := ⟨witness_invariant, _, rfl⟩

theorem witness_NoStepWritesRef : ∃ t, step inUse = .next t := ⟨_, rfl⟩

/-- One command per clause that does change the piece of state the clause is about. -/
theorem witness_OnlyTheNamedCommandsWrite :
    (∃ t, exec (.setmode 1) ready = .next t ∧ t.mode ≠ ready.mode) ∧
      (∃ t, exec (.setdim 4 1) ready = .next t ∧ t.width ≠ ready.width) ∧
      (∃ t, exec (.wrpix 1) image = .next t ∧ ∃ k, pixAt t k ≠ pixAt image k) ∧
      (∃ t, exec .quant { withPalette with idx := Memory.ofList [0, 0] } = .next t ∧
        ∃ k, idxAt t k ≠ idxAt { withPalette with idx := Memory.ofList [0, 0] } k) ∧
      (∃ t, exec .clrpal withPalette = .next t ∧ t.plen ≠ withPalette.plen) ∧
      (∃ t, exec .pack withIndices = .next t ∧ t.olen ≠ withIndices.olen) ∧
      ∃ t, exec .rdout packedAtEnd = .next t ∧ packedAtEnd.err = 0 ∧ t.err ≠ packedAtEnd.err ∧ t.einfo ≠ packedAtEnd.einfo ∧
        t.olen ≠ packedAtEnd.olen :=
  ⟨⟨_, rfl, by decide⟩, ⟨_, rfl, by decide⟩, ⟨_, rfl, 0, by decide⟩, ⟨_, rfl, 0, by decide⟩, ⟨_, rfl, by decide⟩,
    ⟨_, rfl, by decide⟩, ⟨_, rfl, by decide⟩⟩

/-- SETPTR, and a pointer command at the last entry. -/
theorem witness_PointerMovesOnlyByItsCommands :
    packed.olen.toNat ≤ Config.nOut ∧ (∃ t, exec (.setptr 575) packed = .next t ∧ t.ptr ≠ packed.ptr) ∧
      ∃ t, exec (.wrpix 1) { packed with ptr := 575 } = .next t ∧ t.ptr ≠ 575 :=
  ⟨by decide, ⟨_, rfl, by decide⟩, ⟨_, rfl, by decide⟩⟩

theorem witness_TrapsArePrecise : Ready unsupported ∧ ∃ t, exec .convert unsupported = .next t ∧ t.err ≠ 0 :=
  ⟨rfl, _, rfl, by decide⟩

/-- A command, a register that does not exist, an illegal word; and a register that exists. -/
theorem witness_FaultedAcceptsThreeCommandsOnly :
    (faulted.withFetchWord 32 0x1B000000).inbox = [.command 0x1B000000] ∧ faulted.err ≠ 0 ∧
      decode 0x1B000000 = .ok .rdout ∧ acceptedInFaulted .rdout = false ∧
      decode 0x1C000009 = .ok (.rdreg 9) ∧ acceptedInFaulted (.rdreg 9) = false ∧
      decode 0xFF000000 = .error (.undefinedOpcode 0xFF) ∧
      decode 0x1C000006 = .ok (.rdreg 6) ∧ acceptedInFaulted (.rdreg 6) = true := by decide

theorem witness_TrapsDoNotNest : faulted.err ≠ 0 ∧ ∃ t, step (faulted.withFetchWord 32 0x3F000000) = .next t :=
  ⟨by decide, _, rfl⟩

theorem witness_TrapThenClrerrKeepsTheInputs : Ready image ∧ ∃ t, exec .quant image = .next t ∧ t.err ≠ 0 :=
  ⟨rfl, _, rfl, by decide⟩

/-- Each side at 0 and at 25; no dimensions; a width of 4 in mode 2. -/
theorem witness_DimensionErrorConditions :
    Ready ready ∧ (0 : BitVec 8).toNat < 1 ∧ 24 < (25 : BitVec 8).toNat ∧ ready.width = 0 ∧ ready.height = 0 ∧
      Ready { image with mode := .mode2 } ∧ ({ image with mode := .mode2 } : State).width.toNat % ScreenMode.mode2.ppb ≠ 0 :=
  ⟨rfl, by decide, by decide, rfl, rfl, rfl, by decide⟩

/-- Pixel 1 is the first of two unsupported pixels; QUANT, QUANT1 and WRPIX run. -/
theorem witness_UnsupportedColorReportsTheFirstPixel :
    (Ready unsupported ∧ 1 < pixelCount unsupported ∧ ¬ IsReferenceColour unsupported.ref (pixAt unsupported 1) ∧
      (∀ j, j < 1 → IsReferenceColour unsupported.ref (pixAt unsupported j)) ∧
      unsupported.width.toNat % unsupported.mode.ppb = 0) ∧
      (∃ t, exec .quant unsupported = .next t) ∧ (∃ t, exec (.quant1 0) unsupported = .next t) ∧
      ∃ t, exec (.wrpix 0) unsupported = .next t := by
  unfold IsReferenceColour
  exact ⟨⟨rfl, by decide, by decide, by decide, by decide⟩, ⟨_, rfl⟩, ⟨_, rfl⟩, ⟨_, rfl⟩⟩

theorem witness_NopRespondsAndChangesNothing :
    (1 : BitVec 24) ≠ 0 ∧ (ready.withFetchWord 32 1).inbox = .command ((1 : BitVec 24).setWidth 32) :: [] ∧
      (ready.withFetchWord 32 1).err = 0 ∧ (faulted.withFetchWord 32 1).err ≠ 0 := by decide

theorem witness_SetmodeWritesModeOnly : Ready ready ∧ (2 : BitVec 2) ≠ 3 ∧ (3 : BitVec 2) = 3 := ⟨rfl, by decide, rfl⟩

/-- The sides 1 and 24 are accepted; 0 and 25 are not. -/
theorem witness_SetdimWritesBothDimensions :
    Ready ready ∧ (1 ≤ (1 : BitVec 8).toNat ∧ (1 : BitVec 8).toNat ≤ 24 ∧ 1 ≤ (24 : BitVec 8).toNat ∧ (24 : BitVec 8).toNat ≤ 24) ∧
      (0 : BitVec 8).toNat < 1 ∧ 24 < (25 : BitVec 8).toNat := ⟨rfl, by decide, by decide, by decide⟩

theorem witness_SetptrWritesPointerOnly : Ready ready := rfl

theorem witness_ClrpalEmptiesThePalette : Ready withPalette ∧ withPalette.plen = 2 := ⟨rfl, rfl⟩

/-- The last entry and the first outside: for WrpixStoresOnePixel, WridxStoresOneIndex, RdpixReturnsThePixel and
RdidxReturnsTheIndex. -/
theorem witness_pointerRange :
    Ready { ready with ptr := 575 } ∧ ({ ready with ptr := 575 } : State).ptr.toNat ≤ 575 ∧
      Ready { ready with ptr := 576 } ∧ 575 < ({ ready with ptr := 576 } : State).ptr.toNat :=
  ⟨rfl, by decide, rfl, by decide⟩

/-- A byte that is none, a full palette, and a palette of 15 entries. -/
theorem witness_PushpalAppendsOneEntry :
    Ready ready ∧ ¬ IsHardwareByte ready.ref 0x00 ∧ IsHardwareByte ready.ref 0x54 ∧
      Ready { ready with plen := 16 } ∧ ({ ready with plen := 16 } : State).plen = 16 ∧
      Ready { ready with plen := 15 } ∧ ({ ready with plen := 15 } : State).plen.toNat < 16 := by
  unfold IsHardwareByte
  exact ⟨rfl, by decide, by decide, rfl, rfl, rfl, by decide⟩

/-- The last entry of the palette and the first beyond. -/
theorem witness_RdpalReturnsTheEntry :
    Ready withPalette ∧ (1 : Nibble).toNat < withPalette.plen.toNat ∧ withPalette.plen.toNat ≤ (2 : Nibble).toNat :=
  ⟨rfl, by decide, by decide⟩

/-- The last byte of the packed image and the first beyond. -/
theorem witness_RdoutReturnsThePackedByte :
    Ready packed ∧ packed.ptr.toNat < packed.olen.toNat ∧ Ready { packed with ptr := 1 } ∧
      packed.olen.toNat ≤ ({ packed with ptr := 1 } : State).ptr.toNat := ⟨rfl, by decide, rfl, by decide⟩

theorem witness_RdregReturnsTheRegisterWord : 6 < (7 : Nibble).toNat ∧ ready.err = 0 ∧ faulted.err ≠ 0 := by decide

theorem witness_WrpixStreamLoadsTheImageInOrder :
    Ready { ready with ptr := 574 } ∧ ({ ready with ptr := 574 } : State).ptr.toNat + [(1 : ColourWord), 2].length ≤ 576 ∧
      [(1 : ColourWord), 2][1]? = some 2 := ⟨rfl, by decide, rfl⟩

theorem witness_RdoutStreamReturnsTheWholeImage : Ready packed ∧ packed.ptr = 0 ∧ packed.olen = 1 := ⟨rfl, rfl, rfl⟩

theorem allReference_image : AllReference image := by unfold AllReference IsReferenceColour; decide
theorem allReference_overflowing : AllReference overflowing := by unfold AllReference IsReferenceColour; decide
theorem configured_image : Configured image := ⟨by decide, by decide⟩
theorem packable_image : PackableSize image := ⟨configured_image, by decide⟩

theorem witness_BuildpalRanksTheUsedColours : Ready image ∧ Configured image ∧ image.ref.WellFormed ∧ AllReference image :=
  ⟨rfl, configured_image, test_refCpc_wellFormed, allReference_image⟩

theorem witness_ScanCountsTheReferenceColours :
    refCpc.WellFormed ∧ ∀ c ∈ [(0x800000 : ColourWord), 0x800000, 0x00FFFF], IsReferenceColour refCpc c :=
  ⟨test_refCpc_wellFormed, by
    intro c hc
    simp only [List.mem_cons, List.not_mem_nil, or_false] at hc
    rcases hc with rfl | rfl | rfl
    · exact ⟨3, rfl⟩
    · exact ⟨3, rfl⟩
    · exact ⟨20, rfl⟩⟩

theorem witness_PaletteDoesNotDependOnPixelOrder :
    Ready image ∧ Ready imagePermuted ∧ Configured image ∧ Configured imagePermuted ∧ imagePermuted.ref = image.ref ∧
      imagePermuted.mode = image.mode ∧ (pixels imagePermuted).Perm (pixels image) ∧
      (∃ t, exec .buildpal image = .next t) ∧ ∃ t, exec .buildpal imagePermuted = .next t :=
  ⟨rfl, rfl, configured_image, ⟨by decide, by decide⟩, rfl, rfl, by decide, ⟨_, rfl⟩, ⟨_, rfl⟩⟩

/-- Three used colours in mode 2. -/
theorem witness_PaletteOverflowIsNoError :
    Ready overflowing ∧ Configured overflowing ∧ overflowing.ref.WellFormed ∧ AllReference overflowing ∧
      [(0 : FwIndex), 13, 26].Nodup ∧ (∀ f ∈ [(0 : FwIndex), 13, 26], 0 < occurrences overflowing f) ∧
      overflowing.mode.cpm < [(0 : FwIndex), 13, 26].length :=
  ⟨rfl, ⟨by decide, by decide⟩, test_refCpc_wellFormed, allReference_overflowing, by decide, by decide, by decide⟩

theorem witness_NearestIsTheLowestNearestPosition :
    [(0x000000 : ColourWord), 0x000000, 0xFFFFFF] ≠ [] ∧ nearest 0xFFFFFF [0x000000, 0x000000, 0xFFFFFF] = 2 := by decide

/-- Not configured; configured without a palette, and with one of 3 entries in mode 2; usable. -/
theorem witness_QuantWritesNearestIndices :
    (Ready ready ∧ ¬ Configured ready) ∧ (Ready image ∧ Configured image ∧ ¬ PaletteUsable image) ∧
      (Ready { withPalette with plen := 3 } ∧ ¬ PaletteUsable { withPalette with plen := 3 }) ∧
      (Ready withPalette ∧ Configured withPalette ∧ PaletteUsable withPalette) := by
  unfold Configured PaletteUsable Ready
  decide

theorem witness_Quant1ReturnsTheNearestIndex :
    Ready ready ∧ ¬ PaletteUsable ready ∧ Ready withPalette ∧ PaletteUsable withPalette := by
  unfold PaletteUsable Ready
  decide

/-- Pixel 1 of the example is palette entry 0. -/
theorem witness_QuantGivesExactColoursTheirIndex :
    Ready withPalette ∧ (∃ t, exec .quant withPalette = .next t ∧ t.err = 0) ∧ 1 < pixelCount withPalette ∧
      (palRgb withPalette)[0]? = some (pixAt withPalette 1) ∧
      ∀ j, j < 0 → (palRgb withPalette)[j]? ≠ some (pixAt withPalette 1) :=
  ⟨rfl, ⟨_, rfl, by decide⟩, by decide, by decide, by decide⟩

theorem witness_QuantIndicesAreWithinThePalette : Ready withPalette ∧ ∃ t, exec .quant withPalette = .next t ∧ t.err = 0 :=
  ⟨rfl, _, rfl, by decide⟩

/-- One list per mode, with its last slot. -/
theorem witness_PackedByteLayouts :
    ([1, 0, 1, 0, 1, 0, 1, 1] : List Nibble)[7]? = some 1 ∧ ([1, 0, 1, 0, 1, 0, 1, 1] : List Nibble).length = 8 ∧
      ([0, 1, 2, 3] : List Nibble)[3]? = some 3 ∧ ([0, 1, 2, 3] : List Nibble).length = 4 ∧
      ([5, 10] : List Nibble)[1]? = some 10 ∧ ([5, 10] : List Nibble).length = 2 := by decide

theorem witness_PackingIsInvertible :
    ([0, 1, 2, 3] : List Nibble).length = ScreenMode.mode1.ppb ∧ (∀ u ∈ ([0, 1, 2, 3] : List Nibble), u.toNat < ScreenMode.mode1.cpm) ∧
      ([0, 1, 2, 3] : List Nibble)[2]? = some 2 := by decide

/-- A size that cannot be packed; index 2 of mode 1's list as the first out of range in mode 2; a list in range. -/
theorem witness_PackWritesThePackedBytes :
    (Ready { withIndices with mode := .mode2 } ∧ ¬ PackableSize { withIndices with mode := .mode2 }) ∧
      (Ready { withIndices with mode := .mode2, width := 8, idx := Memory.ofList [0, 1, 2, 3, 3, 2, 1, 0] } ∧
        PackableSize { withIndices with mode := .mode2, width := 8, idx := Memory.ofList [0, 1, 2, 3, 3, 2, 1, 0] } ∧
        2 < pixelCount { withIndices with mode := .mode2, width := 8, idx := Memory.ofList [0, 1, 2, 3, 3, 2, 1, 0] } ∧
        2 ≤ (idxAt { withIndices with mode := .mode2, width := 8, idx := Memory.ofList [0, 1, 2, 3, 3, 2, 1, 0] } 2).toNat ∧
        ∀ j, j < 2 →
          (idxAt { withIndices with mode := .mode2, width := 8, idx := Memory.ofList [0, 1, 2, 3, 3, 2, 1, 0] } j).toNat < 2) ∧
      (Ready withIndices ∧ PackableSize withIndices ∧
        ∀ k, k < pixelCount withIndices → (idxAt withIndices k).toNat < withIndices.mode.cpm) := by
  unfold PackableSize Configured Ready
  decide

/-- The image in use, with its indices. -/
theorem witness_PackedLengthIsExact :
    ({ inUse with mode := .mode0 } : State).Inv ∧ Ready { inUse with mode := .mode0 } ∧
      ∃ t, exec .pack { inUse with mode := .mode0 } = .next t ∧ t.err = 0 :=
  ⟨{ witness_invariant with }, rfl, _, rfl, by decide⟩

theorem witness_ConvertIsBuildpalThenQuantThenPack : Ready overflowing ∧ ∃ t, exec .convert overflowing = .next t ∧ t.err = 0 :=
  ⟨rfl, _, rfl, by decide⟩

theorem witness_ConvertEstablishesTheInvariants :
    Ready image ∧ PackableSize image ∧ image.ref.WellFormed ∧ AllReference image :=
  ⟨rfl, packable_image, test_refCpc_wellFormed, allReference_image⟩

/-- The same image beside other results and another pointer. -/
theorem witness_ConvertDependsOnItsInputsOnly :
    Ready image ∧ Ready { image with ptr := 9, idx := Memory.ofList [3] } ∧
      SameImage image { image with ptr := 9, idx := Memory.ofList [3] } ∧ (∃ t, exec .convert image = .next t) ∧
      ∃ t, exec .convert { image with ptr := 9, idx := Memory.ofList [3] } = .next t :=
  ⟨rfl, rfl, ⟨rfl, rfl, rfl, rfl, fun _ _ => rfl⟩, ⟨_, rfl⟩, ⟨_, rfl⟩⟩

theorem witness_ConvertTwiceIsConvertOnce :
    Ready image ∧ ∃ t u, exec .convert image = .next t ∧ t.err = 0 ∧ exec .convert t = .next u :=
  ⟨rfl, after .convert image, after .convert (after .convert image), rfl, by decide, rfl⟩

/-- A bad size, and an unsupported colour. -/
theorem witness_FailedConvertLeavesNothingReadable :
    (Ready ready ∧ ∃ t, exec .convert ready = .next t ∧ t.err ≠ 0) ∧
      Ready unsupported ∧ ∃ t, exec .convert unsupported = .next t ∧ t.err ≠ 0 :=
  ⟨⟨rfl, _, rfl, by decide⟩, rfl, _, rfl, by decide⟩

/-- The smallest legal mode 0 image (V124), all of colour 15. -/
theorem witness_ConvertOfOneColour :
    Ready (imageOf .mode0 2 1 [0xFF8000, 0xFF8000]) ∧ PackableSize (imageOf .mode0 2 1 [0xFF8000, 0xFF8000]) ∧
      (imageOf .mode0 2 1 [0xFF8000, 0xFF8000]).ref.WellFormed ∧
      ∀ k, k < pixelCount (imageOf .mode0 2 1 [0xFF8000, 0xFF8000]) →
        pixAt (imageOf .mode0 2 1 [0xFF8000, 0xFF8000]) k = rgbOf refCpc 15 :=
  ⟨rfl, ⟨⟨by decide, by decide⟩, by decide⟩, test_refCpc_wellFormed, by decide⟩

end Sys2Proof.Tests
end

/-! # Proofs, family 00_scope: converting twice is converting once (00_scope.md R10)

The phases of CONVERT read REF, MODE, WIDTH, HEIGHT and PIX, and these they leave alone: a second run writes the palette, the
indices and the bytes that already stand there. -/

namespace Sys2Proof.Machine

/-! ## What CONVERT's phases write, read off the state they leave -/

@[simp] theorem convertWith_pal (cnt : Counts) (s : State) :
    (convertWith cnt s).pal = Memory.ofList (paletteOf s.ref s.mode cnt) := rfl

@[simp] theorem convertWith_plen (cnt : Counts) (s : State) :
    (convertWith cnt s).plen = BitVec.ofNat 5 (paletteOf s.ref s.mode cnt).length := rfl

/-- The bytes written are the packing of the indices that the command leaves: packing itself writes no index. -/
theorem convertWith_out (cnt : Counts) (s : State) :
    (convertWith cnt s).out = Memory.ofList (packedBytes (convertWith cnt s)) := rfl

theorem convertWith_olen (cnt : Counts) (s : State) :
    (convertWith cnt s).olen = BitVec.ofNat 9 (packedBytes (convertWith cnt s)).length := rfl

/-- The responses do not matter to the phases. -/
theorem convertWith_respond (cnt : Counts) (d : BitVec 24) (s : State) :
    convertWith cnt (respond d s) = respond d (convertWith cnt s) := rfl

/-- A frame does not speak of the responses. -/
theorem onlyChanges_respond_left (fs : List Field) (d : BitVec 24) (s t : State) :
    OnlyChanges fs (respond d s) t ↔ OnlyChanges fs s t := Iff.rfl

theorem onlyChanges_respond_right (fs : List Field) (d : BitVec 24) (s t : State) :
    OnlyChanges fs s (respond d t) ↔ OnlyChanges fs s t := Iff.rfl

/-! ## What each phase reads -/

theorem palRgb_congr {s t : State} (href : t.ref = s.ref) (hplen : t.plen = s.plen) (hpal : ∀ i, palAt t i = palAt s i) :
    palRgb t = palRgb s := by
  simp only [palRgb, href, hplen, hpal]

theorem packedBytes_congr {s t : State} (hmode : t.mode = s.mode) (hn : pixelCount t = pixelCount s)
    (hidx : ∀ k, idxAt t k = idxAt s k) : packedBytes t = packedBytes s := by
  simp only [packedBytes, slotIndices, hmode, hn, hidx]

/-! ## The phases run twice -/

theorem palAt_convertWith_convertWith (cnt : Counts) (s : State) (i : Nat) :
    palAt (convertWith cnt (convertWith cnt s)) i = palAt (convertWith cnt s) i := by
  simp [palAt]

/-- Both runs quantize with the same palette. -/
theorem quantizeColour_buildPalette_convertWith (cnt : Counts) (s : State) (p : ColourWord) :
    quantizeColour (buildPalette cnt (convertWith cnt s)) p = quantizeColour (buildPalette cnt s) p := by
  have hpal : palRgb (buildPalette cnt (convertWith cnt s)) = palRgb (buildPalette cnt s) :=
    palRgb_congr rfl rfl (palAt_convertWith_convertWith cnt s)
  rw [quantizeColour, quantizeColour, hpal]

theorem idxAt_convertWith_convertWith (cnt : Counts) (s : State) (k : Nat) :
    idxAt (convertWith cnt (convertWith cnt s)) k = idxAt (convertWith cnt s) k := by
  by_cases hk : k < pixelCount s
  · simp [idxAt_convertWith, hk, quantizeColour_buildPalette_convertWith]
  · simp [idxAt_convertWith, hk]

theorem packedBytes_convertWith_convertWith (cnt : Counts) (s : State) :
    packedBytes (convertWith cnt (convertWith cnt s)) = packedBytes (convertWith cnt s) :=
  packedBytes_congr rfl rfl (idxAt_convertWith_convertWith cnt s)

/-- The second run of the phases changes no piece of the state. -/
theorem onlyChanges_convertWith_convertWith (cnt : Counts) (s : State) :
    OnlyChanges [] (convertWith cnt s) (convertWith cnt (convertWith cnt s)) := by
  intro f _
  by_cases hf : f ∈ [Field.pal, .plen, .idx, .out, .olen]
  · have hbytes := packedBytes_convertWith_convertWith cnt s
    simp only [List.mem_cons, List.not_mem_nil, or_false] at hf
    obtain rfl | rfl | rfl | rfl | rfl := hf
    · exact palAt_convertWith_convertWith cnt s
    · rfl
    · exact idxAt_convertWith_convertWith cnt s
    · intro j; simp [outAt, convertWith_out, hbytes]
    · simp [Unchanged, convertWith_olen, hbytes]
  · exact onlyChanges_convertWith cnt (convertWith cnt s) f hf

/-! ## The command -/

/-- CONVERT in READY ends in READY exactly when the size is packable and the scan counts every pixel; then it leaves what the
three phases make of the state (44_convert.md R170). -/
theorem exec_convert_succeeds_iff {s t : State} (hr : Ready s) :
    exec .convert s = .next t ∧ t.err = 0 ↔
      PackableSize s ∧ ∃ cnt, scanCounts s.ref (pixels s) zeroCounts = .ok cnt ∧
        t = respond ((convertWith cnt s).olen.setWidth 24) (convertWith cnt s) := by
  simp only [exec, execConvert, whenReady_ready hr, Host.Outcome.next.injEq]
  rw [← packableSize_iff]
  split
  · next hsize =>
    constructor
    · rintro ⟨rfl, herr⟩; exact absurd herr (code_ne_zero .dimensionError)
    · rintro ⟨hpack, _⟩; exact absurd (hsize.symm.trans hpack) (by decide)
  · next hsize =>
    cases hscan : scanCounts s.ref (pixels s) zeroCounts with
    | error c =>
      constructor
      · rintro ⟨rfl, herr⟩; exact absurd herr (code_ne_zero .unsupportedColor)
      · rintro ⟨_, cnt, hok, _⟩; cases hok
    | ok cnt =>
      constructor
      · rintro ⟨rfl, _⟩; exact ⟨Bool.eq_false_of_not_eq_true hsize, cnt, rfl, rfl⟩
      · rintro ⟨_, cnt', hok, rfl⟩; cases hok; exact ⟨rfl, hr⟩

/-- A second CONVERT after a successful one changes no piece of the state: it finds the same image, hence the same counts. -/
theorem onlyChanges_convert_again {s t u : State} (hr : Ready s) (hst : exec .convert s = .next t) (ht : t.err = 0)
    (htu : exec .convert t = .next u) : OnlyChanges [] t u := by
  obtain ⟨hsize, cnt, hscan, rfl⟩ := (exec_convert_succeeds_iff hr).mp ⟨hst, ht⟩
  obtain ⟨hagain, -⟩ := (exec_convert_succeeds_iff ht).mpr ⟨hsize, cnt, hscan, rfl⟩
  obtain rfl : _ = u := Host.Outcome.next.inj (hagain.symm.trans htu)
  rw [convertWith_respond, onlyChanges_respond_left, onlyChanges_respond_right, onlyChanges_respond_right]
  exact onlyChanges_convertWith_convertWith cnt s

theorem OnlyChanges.sameResults {t u : State} (h : OnlyChanges [] t u) : SameResults t u :=
  ⟨h .plen (by simp), fun i _ => h .pal (by simp) i, h .olen (by simp), fun j _ => h .out (by simp) j⟩

/-- Settles O57: the second run finds the image of the first and so writes what already stands there. -/
theorem convertTwiceIsConvertOnce : Obligations.ConvertTwiceIsConvertOnce := by
  intro s t u hr hst ht htu
  have hsame : OnlyChanges [] t u := onlyChanges_convert_again hr hst ht htu
  have herr : u.err = t.err := hsame .err (by simp)
  exact ⟨herr.trans ht, hsame.sameResults, hsame .idx (by simp), hsame.mono (by simp)⟩

end Sys2Proof.Machine

/-! # Proofs, family 10_state: reset, the invariant, and who writes what (10_state.md)

What a command changes is said once, by `exec_ends`: it completes with an `Effect` of its own, takes a trap, or is rejected. The
frame of a command, the pointer's moves and the invariant are read off these three ends. -/

namespace Sys2Proof.Machine

/-! ## What a command that completes changes -/

/-- The change that a command makes when it completes, with the checks that it passed; the response is added after it. -/
inductive Effect (s : State) : Instr → State → Prop where
  | nop : Effect s .nop s
  | setmode {m : BitVec 2} {mode : ScreenMode} (named : ScreenMode.ofBits m = some mode) :
      Effect s (.setmode m) { s with mode := mode }
  | setdim {w h : BitVec 8} (wLegal : legalDim w = true) (hLegal : legalDim h = true) :
      Effect s (.setdim w h) { s with width := w.setWidth 5, height := h.setWidth 5 }
  | setptr (p : BitVec 10) : Effect s (.setptr p) { s with ptr := p }
  | clrpal : Effect s .clrpal (clearPalette s)
  | wrpix (c : ColourWord) (inside : s.ptr.toNat < 576) :
      Effect s (.wrpix c) (advancePtr (writePix s s.ptr.toNat c))
  | pushpal {b : Byte} (valid : validHw s.ref b = true) (room : s.plen ≠ 16) : Effect s (.pushpal b) (appendPal s b)
  | wridx (v : Nibble) (inside : s.ptr.toNat < 576) :
      Effect s (.wridx v) (advancePtr (writeIdx s s.ptr.toNat v))
  | rdpix (inside : s.ptr.toNat < 576) : Effect s .rdpix (advancePtr s)
  | rdpal (i : Nibble) (inside : i.toNat < s.plen.toNat) : Effect s (.rdpal i) s
  | rdidx (inside : s.ptr.toNat < 576) : Effect s .rdidx (advancePtr s)
  | rdout (inside : s.ptr.toNat < s.olen.toNat) : Effect s .rdout (advancePtr s)
  | rdreg {r : Nibble} (defined : (regWord s r).isSome = true) : Effect s (.rdreg r) s
  | buildpal {cnt : Counts} (configured : Configured s) (counted : scanCounts s.ref (pixels s) zeroCounts = .ok cnt) :
      Effect s .buildpal (buildPalette cnt s)
  | quant (configured : Configured s) (usable : PaletteUsable s) : Effect s .quant (quantizePixels s)
  | quant1 (c : ColourWord) (usable : PaletteUsable s) : Effect s (.quant1 c) s
  | pack (packable : PackableSize s) (inRange : firstBadIndex s = none) : Effect s .pack (packIndices s)
  | convert {cnt : Counts} (packable : PackableSize s) (counted : scanCounts s.ref (pixels s) zeroCounts = .ok cnt) :
      Effect s .convert (convertWith cnt s)
  | clrerr : Effect s .clrerr (returnFromTrap s)

/-- The three ends of a command (30_encoding.md R79). -/
inductive Ends (i : Instr) (s : State) : State → Prop where
  /-- It completes: in READY, or as one of the commands that FAULTED accepts. -/
  | completes {u : State} (data : BitVec 24) (accepted : s.err = 0 ∨ acceptedInFaulted i = true) (effect : Effect s i u) :
      Ends i s (respond data u)
  /-- It takes a trap, from READY, for one of the causes it can raise. -/
  | traps {cause : Cause} (info : BitVec 24) (ready : s.err = 0) (listed : cause ∈ mayRaise i) : Ends i s (raise cause info s)
  /-- FAULTED rejects it. -/
  | rejected (faulted : s.err ≠ 0) : Ends i s (reject s)

theorem Ends.whenReady {i : Instr} {s : State} {rule : State → State} (h : s.err = 0 → Ends i s (rule s)) :
    Ends i s (whenReady s rule) := by
  by_cases hr : s.err = 0
  · rw [whenReady_ready hr]; exact h hr
  · rw [whenReady_faulted hr]; exact .rejected hr

/-- PTR's check of the commands that access PIX and IDX (60_exceptions.md R205). -/
theorem Ends.atPointer {i : Instr} {s u : State} {data : BitVec 24} (hr : s.err = 0) (hc : Cause.pointerRange ∈ mayRaise i)
    (h : s.ptr.toNat < 576 → Effect s i u) :
    Ends i s (if pointerOutside s then raisePointer s else respond data u) := by
  split
  · exact .traps _ hr hc
  · next hin => exact .completes _ (.inl hr) (h (by simpa [pointerOutside] using hin))

/-- Every command ends in one of the three ways. -/
theorem exec_ends {i : Instr} {s t : State} (h : exec i s = .next t) : Ends i s t := by
  cases i <;> obtain rfl := Host.Outcome.next.inj h
  case nop => exact .completes _ (.inr rfl) .nop
  case setmode m =>
    refine .whenReady fun hr => ?_
    split
    · exact .traps _ hr (by simp [mayRaise])
    · next hm => exact .completes _ (.inl hr) (.setmode hm)
  case setdim w h =>
    refine .whenReady fun hr => ?_
    split
    · next hd =>
      obtain ⟨hw, hh⟩ := Bool.and_eq_true_iff.mp hd
      exact .completes _ (.inl hr) (.setdim hw hh)
    · exact .traps _ hr (by simp [mayRaise])
  case setptr p => exact .whenReady fun hr => .completes _ (.inl hr) (.setptr p)
  case clrpal => exact .whenReady fun hr => .completes _ (.inl hr) .clrpal
  case wrpix c => exact .whenReady fun hr => .atPointer hr (by simp [mayRaise]) (.wrpix c)
  case pushpal b =>
    refine .whenReady fun hr => ?_
    split
    · next hv =>
      split
      · exact .traps _ hr (by simp [mayRaise])
      · next hroom => exact .completes _ (.inl hr) (.pushpal hv hroom)
    · exact .traps _ hr (by simp [mayRaise])
  case wridx v => exact .whenReady fun hr => .atPointer hr (by simp [mayRaise]) (.wridx v)
  case rdpix => exact .whenReady fun hr => .atPointer hr (by simp [mayRaise]) .rdpix
  case rdpal k =>
    refine .whenReady fun hr => ?_
    split
    · exact .traps _ hr (by simp [mayRaise])
    · next hk => exact .completes _ (.inl hr) (.rdpal k (Nat.lt_of_not_le hk))
  case rdidx => exact .whenReady fun hr => .atPointer hr (by simp [mayRaise]) .rdidx
  case rdout =>
    refine .whenReady fun hr => ?_
    split
    · exact .traps _ hr (by simp [mayRaise])
    · next hin => exact .completes _ (.inl hr) (.rdout (Nat.lt_of_not_le hin))
  case rdreg r =>
    have hsome := regWord_isSome s r
    split
    · next data hd =>
      have hr6 : decide (r.toNat ≤ 6) = true := by rw [← hsome, hd]; rfl
      exact .completes _ (.inr hr6) (.rdreg (by rw [hd]; rfl))
    · exact .whenReady fun hr => .traps _ hr (by simp [mayRaise])
  case buildpal =>
    refine .whenReady fun hr => ?_
    split
    · exact .traps _ hr (by simp [mayRaise])
    · next hc =>
      split
      · exact .traps _ hr (by simp [mayRaise])
      · next hcnt => exact .completes _ (.inl hr) (.buildpal (unconfigured_iff.mp (by simpa using hc)) hcnt)
  case quant =>
    refine .whenReady fun hr => ?_
    split
    · exact .traps _ hr (by simp [mayRaise])
    · next hc =>
      split
      · exact .traps _ hr (by simp [mayRaise])
      · next hp =>
        exact .completes _ (.inl hr)
          (.quant (unconfigured_iff.mp (by simpa using hc)) (paletteUnusable_iff.mp (by simpa using hp)))
  case quant1 c =>
    refine .whenReady fun hr => ?_
    split
    · exact .traps _ hr (by simp [mayRaise])
    · next hp => exact .completes _ (.inl hr) (.quant1 c (paletteUnusable_iff.mp (by simpa using hp)))
  case pack =>
    refine .whenReady fun hr => ?_
    split
    · exact .traps _ hr (by simp [mayRaise])
    · next hs =>
      split
      · exact .traps _ hr (by simp [mayRaise])
      · next hbad => exact .completes _ (.inl hr) (.pack (packableSize_iff.mp (Bool.eq_false_of_not_eq_true hs)) hbad)
  case convert =>
    refine .whenReady fun hr => ?_
    split
    · exact .traps _ hr (by simp [mayRaise])
    · next hs =>
      split
      · exact .traps _ hr (by simp [mayRaise])
      · next hcnt => exact .completes _ (.inl hr) (.convert (packableSize_iff.mp (Bool.eq_false_of_not_eq_true hs)) hcnt)
  case clrerr => exact .completes _ (.inr rfl) .clrerr

/-! ## The frame of a command -/

/-- The pieces of state that a command may write when it completes. -/
def written : Instr → List Field
  | .nop | .rdpal _ | .rdreg _ | .quant1 _ => []
  | .setmode _ => [.mode]
  | .setdim _ _ => [.width, .height]
  | .setptr _ | .rdpix | .rdidx | .rdout => [.ptr]
  | .clrpal | .pushpal _ | .buildpal => [.pal, .plen]
  | .wrpix _ => [.pix, .ptr]
  | .wridx _ => [.idx, .ptr]
  | .quant => [.idx]
  | .pack => [.out, .olen]
  | .convert => [.pal, .plen, .idx, .out, .olen]
  | .clrerr => [.err, .einfo, .plen, .olen, .pal, .out]

theorem Effect.onlyChanges {i : Instr} {s u : State} (h : Effect s i u) : OnlyChanges (written i) s u := by
  cases h with
  | nop | rdpal | rdreg | quant1 => exact onlyChanges_refl s _
  | setmode | setdim | setptr => intro f hf; cases f <;> simp_all [Unchanged, written, pixAt, idxAt, palAt, outAt]
  | clrpal => exact onlyChanges_clearPalette s
  | wrpix => exact (onlyChanges_writePix s _ _).trans (onlyChanges_advancePtr _) (by simp [written]) (by simp [written])
  | wridx => exact (onlyChanges_writeIdx s _ _).trans (onlyChanges_advancePtr _) (by simp [written]) (by simp [written])
  | rdpix | rdidx | rdout => exact onlyChanges_advancePtr s
  | pushpal => exact onlyChanges_appendPal s _
  | buildpal => exact onlyChanges_buildPalette _ s
  | quant => exact onlyChanges_quantizePixels s
  | pack => exact onlyChanges_packIndices s
  | convert => exact onlyChanges_convertWith _ s
  | clrerr => exact onlyChanges_returnFromTrap s

/-- A command that takes no trap changes only the pieces it may write; a rejected one changes none. -/
theorem exec_frame {i : Instr} {s t : State} (h : exec i s = .next t) :
    OnlyChanges (written i) s t ∨ (s.err = 0 ∧ ∃ cause ∈ mayRaise i, ∃ info, t = raise cause info s) := by
  cases exec_ends h with
  | completes data _ effect => exact .inl ((onlyChanges_respond_right _ data s _).mpr effect.onlyChanges)
  | traps info ready listed => exact .inr ⟨ready, _, listed, info, rfl⟩
  | rejected _ => exact .inl ((onlyChanges_reject s).mono (by simp))

theorem ref_not_written (i : Instr) : Field.ref ∉ written i := by cases i <;> simp [written]

theorem mode_written {i : Instr} (h : Field.mode ∈ written i) : ∃ m, i = .setmode m := by
  cases i <;> simp_all [written]

theorem dimension_written {i : Instr} (h : Field.width ∈ written i ∨ Field.height ∈ written i) : ∃ w h, i = .setdim w h := by
  cases i <;> simp_all [written]

theorem pix_written {i : Instr} (h : Field.pix ∈ written i) : ∃ c, i = .wrpix c := by
  cases i <;> simp_all [written]

theorem idx_written {i : Instr} (h : Field.idx ∈ written i) : (∃ v, i = .wridx v) ∨ i = .quant ∨ i = .convert := by
  cases i <;> simp_all [written]

theorem palette_written {i : Instr} (h : Field.plen ∈ written i ∨ Field.pal ∈ written i) :
    i = .buildpal ∨ i = .convert ∨ (∃ b, i = .pushpal b) ∨ i = .clrpal ∨ i = .clrerr := by
  cases i <;> simp_all [written]

theorem image_written {i : Instr} (h : Field.olen ∈ written i ∨ Field.out ∈ written i) :
    i = .pack ∨ i = .convert ∨ i = .clrerr := by
  cases i <;> simp_all [written]

theorem error_written {i : Instr} (h : Field.err ∈ written i ∨ Field.einfo ∈ written i) : i = .clrerr := by
  cases i <;> simp_all [written]

theorem OnlyChanges.mem_of_changed {fs : List Field} {s t : State} {f : Field} (h : OnlyChanges fs s t)
    (hf : ¬ Unchanged s t f) : f ∈ fs := not_not.mp fun hm => hf (h f hm)

/-- Settles O16: the frame of a command that takes no trap, and the trap entry's own writes. -/
theorem onlyTheNamedCommandsWrite : Obligations.OnlyTheNamedCommandsWrite := by
  intro i s t h
  rcases exec_frame h with frame | ⟨ready, cause, listed, info, rfl⟩
  · have mem {f : Field} (hf : ¬ Unchanged s t f) : f ∈ written i := frame.mem_of_changed hf
    refine ⟨fun hm => mode_written (mem hm), fun hd => dimension_written (hd.imp mem mem),
      fun hp => pix_written (mem (not_forall.mpr hp)), fun hi => idx_written (mem (not_forall.mpr hi)), fun hp => ?_,
      fun ho => ?_, fun he => .inl (error_written (he.imp mem mem))⟩
    · obtain h | h | h | h | h := palette_written (hp.imp mem fun hpal => mem (not_forall.mpr hpal)) <;> simp [h]
    · obtain h | h | h := image_written (ho.imp mem fun hout => mem (not_forall.mpr hout)) <;> simp [h]
  · have trap : s.err = 0 ∧ (raise cause info s).err ≠ 0 := ⟨ready, code_ne_zero cause⟩
    exact ⟨by simp, by simp, by simp, by simp, fun _ => .inr (.inr (.inr (.inr (.inr trap)))),
      fun _ => .inr (.inr (.inr trap)), fun _ => .inr ⟨ready, cause, listed, rfl⟩⟩

theorem exec_ref {i : Instr} {s t : State} (h : exec i s = .next t) : t.ref = s.ref := by
  rcases exec_frame h with frame | ⟨_, _, _, _, rfl⟩
  · exact frame .ref (ref_not_written i)
  · rfl

theorem illegalWord_ref (cmd : Word) (s : State) : (illegalWord cmd s).ref = s.ref := by
  rcases illegalWord_cases cmd s with ⟨_, h⟩ | ⟨_, h⟩ <;> rw [h] <;> rfl

/-- Settles O15, by the four kinds of step. -/
theorem noStepWritesRef : Obligations.NoStepWritesRef := by
  intro s t h
  obtain ⟨_, rfl⟩ | ⟨_, _, rfl⟩ | ⟨_, rest, _, _, _, hexec⟩ | ⟨cmd, rest, _, _, _, rfl⟩ := step_cases s t h
  · rfl
  · rfl
  · exact exec_ref (s := { s with inbox := rest }) hexec
  · exact illegalWord_ref cmd { s with inbox := rest }

/-! ## The pointer -/

/-- Below the capacity of PIX and IDX the increment does not wrap (70_reset_and_hazards.md R235). -/
theorem toNat_ptr_add_one {s : State} (h : s.ptr.toNat < 576) :
    (s.ptr + 1).toNat = s.ptr.toNat + 1 ∧ (s.ptr + 1).toNat ≤ 576 := by
  have hsum : (s.ptr + 1).toNat = s.ptr.toNat + 1 := by bv_omega
  exact ⟨hsum, by omega⟩

/-- PTR after a command that completes: as it was, SETPTR's operand, or one more than a value inside PIX, IDX or OUT. -/
theorem Effect.ptr_cases {i : Instr} {s u : State} (h : Effect s i u) (accepted : s.err = 0 ∨ acceptedInFaulted i = true)
    (holen : s.olen.toNat ≤ 288) :
    u.ptr = s.ptr ∨ i = .setptr u.ptr ∨
      (((∃ c, i = .wrpix c) ∨ (∃ v, i = .wridx v) ∨ i = .rdpix ∨ i = .rdidx ∨ i = .rdout) ∧
        s.ptr.toNat < 576 ∧ u.ptr = s.ptr + 1 ∧ u.err = 0) := by
  cases h with
  | setptr => exact .inr (.inl rfl)
  | wrpix _ inside | wridx _ inside | rdpix inside | rdidx inside =>
    exact .inr (.inr ⟨by simp, inside, rfl, accepted.resolve_right Bool.false_ne_true⟩)
  | rdout inside => exact .inr (.inr ⟨by simp, by omega, rfl, accepted.resolve_right Bool.false_ne_true⟩)
  | _ => exact .inl rfl

/-- Settles O17: a trap and a rejection leave PTR alone, and a completed command moves it as `Effect.ptr_cases` says. -/
theorem pointerMovesOnlyByItsCommands : Obligations.PointerMovesOnlyByItsCommands := by
  intro i s t holen h hne
  cases exec_ends h with
  | traps => exact absurd rfl hne
  | rejected => exact absurd rfl hne
  | completes data accepted effect =>
    obtain hsame | hset | ⟨hcommand, inside, hptr, herr⟩ := effect.ptr_cases accepted holen
    · exact absurd hsame hne
    · exact .inl hset
    · obtain ⟨hsum, hle⟩ := toNat_ptr_add_one inside
      rw [respond_ptr, respond_err, hptr]
      exact .inr ⟨hcommand, hsum, hle, herr⟩

/-! ## Each update of the state keeps the invariant -/

/-- W2 and W3 of 10_state.md R21: the first 27 values of a permutation are pairwise different. -/
theorem config_ref_wellFormed : Config.ref.WellFormed := by
  have ofNat_inj {w : Nat} (hw : 27 ≤ 2 ^ w) {f g : FwIndex} (h : BitVec.ofNat w f.val = BitVec.ofNat w g.val) : f = g := by
    have hnat := congrArg BitVec.toNat h
    rw [BitVec.toNat_ofNat, BitVec.toNat_ofNat, Nat.mod_eq_of_lt (by omega), Nat.mod_eq_of_lt (by omega)] at hnat
    exact Fin.ext hnat
  constructor
  · intro f g h
    exact ofNat_inj (w := 24) (by decide) (Config.rgbOrder.injective (by simpa [Config.ref] using h))
  · intro f g h
    exact ofNat_inj (w := 8) (by decide) (Config.hwOrder.injective (by simpa [Config.ref] using h))

/-- Settles O13: REF by the two permutations; every other clause speaks of zeros and of arrays that list nothing. -/
theorem resetStateHasTheInvariant : Obligations.ResetStateHasTheInvariant where
  refWellFormed := config_ref_wellFormed
  widthInRange := by decide
  heightInRange := by decide
  bothConfigured := by decide
  pixCanonical := rfl
  idxCanonical := rfl
  plenInRange := by decide
  palCanonical := rfl
  palDefined := fun _ hi => absurd hi (Nat.not_lt_zero _)
  palValid := fun _ hi => absurd hi (Nat.not_lt_zero _)
  olenInRange := by decide
  outCanonical := rfl
  outDefined := fun _ hj => absurd hj (Nat.not_lt_zero _)
  errInRange := by decide
  readyClears := fun _ => rfl
  faultedEmpty := fun _ => ⟨rfl, rfl⟩

theorem withInbox_inv {s : State} (inv : s.Inv) (events : List HostEvent) : State.Inv { s with inbox := events } := { inv with }

theorem respond_inv {s : State} (inv : s.Inv) (data : BitVec 24) : (respond data s).Inv := { inv with }

theorem reject_inv {s : State} (inv : s.Inv) : (reject s).Inv := { inv with }

theorem advancePtr_inv {s : State} (inv : s.Inv) : (advancePtr s).Inv := { inv with }

theorem setPtr_inv {s : State} (inv : s.Inv) (p : BitVec 10) : State.Inv { s with ptr := p } := { inv with }

theorem setMode_inv {s : State} (inv : s.Inv) (mode : ScreenMode) : State.Inv { s with mode := mode } := { inv with }

theorem clearPalette_inv {s : State} (inv : s.Inv) : (clearPalette s).Inv :=
  { inv with
    plenInRange := by simp
    palCanonical := rfl
    palDefined := by simp
    palValid := by simp
    faultedEmpty := fun herr => ⟨rfl, (inv.faultedEmpty herr).2⟩ }

theorem clearResults_inv {s : State} (inv : s.Inv) : (clearResults s).Inv :=
  { clearPalette_inv inv with
    olenInRange := by simp
    outCanonical := rfl
    outDefined := by simp
    faultedEmpty := fun _ => ⟨rfl, rfl⟩ }

theorem raise_inv {s : State} (inv : s.Inv) (cause : Cause) (info : BitVec 24) : (raise cause info s).Inv :=
  { clearResults_inv inv with
    errInRange := (code_range cause).2
    readyClears := fun herr => absurd herr (code_ne_zero cause)
    faultedEmpty := fun _ => ⟨rfl, rfl⟩ }

theorem returnFromTrap_inv {s : State} (inv : s.Inv) : (returnFromTrap s).Inv :=
  { clearResults_inv inv with
    errInRange := by simp
    readyClears := fun _ => rfl
    faultedEmpty := fun _ => ⟨rfl, rfl⟩ }

theorem hardwareReset_inv {s : State} (inv : s.Inv) : (hardwareReset s).Inv :=
  { returnFromTrap_inv inv with
    widthInRange := by simp
    heightInRange := by simp
    bothConfigured := by simp
    pixCanonical := rfl
    idxCanonical := rfl
    palDefined := by simp
    palValid := by simp
    outDefined := by simp }

theorem illegalWord_inv {s : State} (inv : s.Inv) (cmd : Word) : (illegalWord cmd s).Inv := by
  rcases illegalWord_cases cmd s with ⟨_, h⟩ | ⟨_, h⟩ <;> rw [h]
  · exact raise_inv inv _ _
  · exact reject_inv inv

/-- SETDIM writes two sides in 1..24 (10_state.md R24). -/
theorem setDim_inv {s : State} (inv : s.Inv) {w h : Byte} (hw : legalDim w = true) (hh : legalDim h = true) :
    State.Inv { s with width := w.setWidth 5, height := h.setWidth 5 } := by
  simp only [legalDim, Config.maxDim, Bool.and_eq_true, decide_eq_true_eq] at hw hh
  have hwn : (w.setWidth 5).toNat = w.toNat := by rw [BitVec.toNat_setWidth]; omega
  have hhn : (h.setWidth 5).toNat = h.toNat := by rw [BitVec.toNat_setWidth]; omega
  exact
    { inv with
      widthInRange := hwn.trans_le hw.2
      heightInRange := hhn.trans_le hh.2
      bothConfigured := by bv_omega }

theorem writePix_inv {s : State} (inv : s.Inv) {k : Nat} (hk : k < Config.nPix) (c : ColourWord) : (writePix s k c).Inv :=
  { inv with pixCanonical := Memory.wf_write c inv.pixCanonical hk }

theorem writeIdx_inv {s : State} (inv : s.Inv) {k : Nat} (hk : k < Config.nPix) (v : Nibble) : (writeIdx s k v).Inv :=
  { inv with idxCanonical := Memory.wf_write v inv.idxCanonical hk }

theorem installIndices_inv {s : State} (inv : s.Inv) {indices : List Nibble} (hlen : indices.length ≤ Config.nPix) :
    (installIndices s indices).Inv :=
  { inv with idxCanonical := Memory.wf_writeAll indices inv.idxCanonical (by omega) }

/-- A valid byte appended to a palette that is not full (10_state.md R26, P1). -/
theorem appendPal_inv {s : State} (inv : s.Inv) (ready : s.err = 0) {b : Byte} (valid : validHw s.ref b = true)
    (room : s.plen ≠ 16) : (appendPal s b).Inv := by
  have hmax : s.plen.toNat ≤ 16 := inv.plenInRange
  have hlen : (s.plen + 1).toNat = s.plen.toNat + 1 ∧ s.plen.toNat < 16 := by bv_omega
  have old {i : Nat} (hi : i < (s.plen + 1).toNat) (hne : i ≠ s.plen.toNat) : i < s.plen.toNat := by omega
  exact
    { inv with
      plenInRange := hlen.1.trans_le hlen.2
      palCanonical := Memory.wf_write b (Memory.wf_mono inv.palCanonical (by simp only [appendPal_plen]; omega))
        (by simp only [appendPal_plen]; omega)
      palDefined := fun i hi => by
        rw [appendPal_pal, Memory.read_write]
        split
        · rfl
        · next hne => exact inv.palDefined i (old hi hne)
      palValid := fun i hi => by
        rw [palAt_appendPal]
        split
        · exact valid
        · next hne => exact inv.palValid i (old hi hne)
      faultedEmpty := fun herr => absurd ready herr }

/-- A list of at most 16 valid bytes installed as the palette (10_state.md R26, P1). -/
theorem installPalette_inv {s : State} (inv : s.Inv) (ready : s.err = 0) {bytes : List Byte}
    (hlen : bytes.length ≤ 16) (valid : ∀ b ∈ bytes, validHw s.ref b = true) : (installPalette s bytes).Inv := by
  have hplen : (installPalette s bytes).plen.toNat = bytes.length := by
    rw [installPalette_plen, BitVec.toNat_ofNat]; omega
  exact
    { inv with
      plenInRange := hplen.trans_le hlen
      palCanonical := Memory.wf_ofList bytes hplen.ge
      palDefined := fun i hi => by
        rw [hplen] at hi
        simp [hi]
      palValid := fun i hi => by
        rw [hplen] at hi
        rw [palAt_installPalette (List.getElem?_eq_getElem hi)]
        exact valid _ (List.getElem_mem hi)
      faultedEmpty := fun herr => absurd ready herr }

/-- A list of at most 288 bytes installed as the packed image (10_state.md R29). -/
theorem installImage_inv {s : State} (inv : s.Inv) (ready : s.err = 0) {bytes : List Byte}
    (hlen : bytes.length ≤ 288) : (installImage s bytes).Inv := by
  have holen : (installImage s bytes).olen.toNat = bytes.length := by
    rw [installImage_olen, BitVec.toNat_ofNat]; omega
  exact
    { inv with
      olenInRange := holen.trans_le hlen
      outCanonical := Memory.wf_ofList bytes holen.ge
      outDefined := fun j hj => by
        rw [holen] at hj
        simp [hj]
      faultedEmpty := fun herr => absurd ready herr }

/-! ## The compute phases keep the invariant -/

/-- An image has at most 576 pixels (00_scope.md R7). -/
theorem State.Inv.pixelCount_le_nPix {s : State} (inv : s.Inv) : pixelCount s ≤ Config.nPix :=
  calc pixelCount s ≤ 24 * 24 := Nat.mul_le_mul inv.widthInRange inv.heightInRange
    _ = Config.nPix := rfl

theorem buildPalette_inv {s : State} (inv : s.Inv) (ready : s.err = 0) (cnt : Counts) : (buildPalette cnt s).Inv := by
  refine installPalette_inv inv ready ?_ ?_
  · calc (paletteOf s.ref s.mode cnt).length ≤ s.mode.cpm := by simp [paletteOf]
      _ ≤ 16 := cpm_le s.mode
  · intro b hb
    obtain ⟨f, _, rfl⟩ := List.mem_map.mp hb
    exact validHw_iff.mpr ⟨f, rfl⟩

theorem quantizePixels_inv {s : State} (inv : s.Inv) : (quantizePixels s).Inv :=
  installIndices_inv inv (by simpa [pixels] using inv.pixelCount_le_nPix)

/-- Every byte holds two pixels or more, so 576 pixels fill at most 288 bytes (10_state.md R29). -/
theorem packIndices_inv {s : State} (inv : s.Inv) (ready : s.err = 0) : (packIndices s).Inv := by
  refine installImage_inv inv ready ?_
  calc (packedBytes s).length = pixelCount s / s.mode.ppb := by simp [packedBytes]
    _ ≤ Config.nPix / 2 := Nat.div_le_div inv.pixelCount_le_nPix (two_le_ppb s.mode) (by decide)
    _ = Config.nOut := rfl

theorem convertWith_inv {s : State} (inv : s.Inv) (ready : s.err = 0) (cnt : Counts) : (convertWith cnt s).Inv :=
  packIndices_inv (quantizePixels_inv (buildPalette_inv inv ready cnt)) ready

/-! ## Every step keeps the invariant -/

theorem Effect.inv {i : Instr} {s u : State} (h : Effect s i u) (accepted : s.err = 0 ∨ acceptedInFaulted i = true)
    (inv : s.Inv) : u.Inv := by
  cases h with
  | nop | rdpal | rdreg | quant1 => exact inv
  | setmode => exact setMode_inv inv _
  | setdim wLegal hLegal => exact setDim_inv inv wLegal hLegal
  | setptr p => exact setPtr_inv inv p
  | clrpal => exact clearPalette_inv inv
  | wrpix c inside => exact advancePtr_inv (writePix_inv inv inside c)
  | pushpal valid room => exact appendPal_inv inv (accepted.resolve_right Bool.false_ne_true) valid room
  | wridx v inside => exact advancePtr_inv (writeIdx_inv inv inside v)
  | rdpix | rdidx | rdout => exact advancePtr_inv inv
  | buildpal => exact buildPalette_inv inv (accepted.resolve_right Bool.false_ne_true) _
  | quant => exact quantizePixels_inv inv
  | pack => exact packIndices_inv inv (accepted.resolve_right Bool.false_ne_true)
  | convert => exact convertWith_inv inv (accepted.resolve_right Bool.false_ne_true) _
  | clrerr => exact returnFromTrap_inv inv

theorem exec_inv {i : Instr} {s t : State} (inv : s.Inv) (h : exec i s = .next t) : t.Inv := by
  cases exec_ends h with
  | completes data accepted effect => exact respond_inv (effect.inv accepted inv) data
  | traps info => exact raise_inv inv _ info
  | rejected => exact reject_inv inv

/-- Settles O14, by the four kinds of step. -/
theorem everyStepKeepsTheInvariant : Obligations.EveryStepKeepsTheInvariant := by
  intro s t inv h
  obtain ⟨_, rfl⟩ | ⟨rest, _, rfl⟩ | ⟨_, rest, _, _, _, hexec⟩ | ⟨cmd, rest, _, _, _, rfl⟩ := step_cases s t h
  · exact inv
  · exact hardwareReset_inv (withInbox_inv inv rest)
  · exact exec_inv (withInbox_inv inv rest) hexec
  · exact illegalWord_inv (withInbox_inv inv rest) cmd

/-! ## Reset -/

theorem step_reset {s : State} {rest : List HostEvent} (h : s.inbox = .reset :: rest) :
    step s = .next (hardwareReset { s with inbox := rest }) := by
  simp [step, takeEvent, h, runEvent]

/-- RDOUT with no packed byte at PTR (40_config_and_data.md R101). -/
theorem traps_rdout {s : State} (ready : s.err = 0) (h : s.olen.toNat ≤ s.ptr.toNat) :
    Traps .rdout s .pointerRange (s.ptr.setWidth 24) :=
  ⟨_, by rw [exec, execRdout, whenReady_ready ready, if_pos h, raisePointer], raise_trapped _ _ s⟩

/-- RDPAL of an entry at or beyond PLEN (40_config_and_data.md R99). -/
theorem traps_rdpal {s : State} (ready : s.err = 0) {i : Nibble} (h : s.plen.toNat ≤ i.toNat) :
    Traps (.rdpal i) s .pointerRange (i.setWidth 24) :=
  ⟨_, by rw [exec, execRdpal, whenReady_ready ready, if_pos h], raise_trapped _ _ s⟩

/-- Settles O8: the reset's fields, and with PLEN and OLEN 0 no entry is below them. -/
theorem hardwareResetClearsTheBlock : Obligations.HardwareResetClearsTheBlock := by
  intro s rest h
  exact ⟨_, step_reset h, rfl, rfl, rfl, rfl, rfl, rfl, rfl, rfl, rfl, rfl, rfl, fun _ => ⟨rfl, rfl, rfl, rfl⟩,
    traps_rdout rfl (Nat.le_refl _), fun _ => traps_rdpal rfl (Nat.zero_le _)⟩

/-- Settles O12: the fields of the reset state. -/
theorem resetRegisterValues : Obligations.ResetRegisterValues :=
  ⟨rfl, rfl, rfl, rfl, rfl, rfl, rfl, rfl, rfl, fun _ => ⟨rfl, rfl, rfl, rfl⟩⟩

end Sys2Proof.Machine

/-! # Proofs, family 30_encoding: the decoder, the encoder, and the step that runs a word (30_encoding.md)

`decode` picks a row by its opcode, the table says what a word is by mask and match. The two agree because no two rows share an
opcode and every mask holds the whole opcode field (`decode_eq_ok_iff`). The operand bits that a row's `build` reads are those
that its mask leaves free, so nothing of a word is lost. -/

namespace Sys2Proof

/-! ## The opcode picks the row -/

theorem opcodeOf_and (v w : Word) : opcodeOf (v &&& w) = opcodeOf v &&& opcodeOf w := by
  simp [opcodeOf, BitVec.extractLsb'_and]

theorem operandOf_and (v w : Word) : operandOf (v &&& w) = operandOf v &&& operandOf w := by
  simp [operandOf, BitVec.extractLsb'_and]

/-- Every mask holds the opcode field (30_encoding.md R73). -/
theorem opcodeOf_mask {row : Row} (h : row ∈ commandTable) : opcodeOf row.mask = BitVec.allOnes 8 := by
  have hall : ∀ row ∈ commandTable, opcodeOf row.mask = BitVec.allOnes 8 := by decide
  exact hall row h

/-- A pattern sets no operand bit (30_encoding.md R73). -/
theorem operandOf_pattern {row : Row} (h : row ∈ commandTable) : operandOf row.pattern = 0 := by
  have hall : ∀ row ∈ commandTable, operandOf row.pattern = 0 := by decide
  exact hall row h

theorem opcodeOf_of_matches {row : Row} {cmd : Word} (h : row ∈ commandTable) (hm : cmd &&& row.mask = row.pattern) :
    opcodeOf row.pattern = opcodeOf cmd := by
  rw [← hm, opcodeOf_and, opcodeOf_mask h, BitVec.and_allOnes]

/-- No two rows of the table have the same opcode (30_encoding.md R73). -/
theorem row_eq_of_opcode_eq {row row' : Row} (h : row ∈ commandTable) (h' : row' ∈ commandTable)
    (hop : opcodeOf row.pattern = opcodeOf row'.pattern) : row = row' := by
  have hnodup : (commandTable.map fun row => opcodeOf row.pattern).Nodup := by decide
  exact List.inj_on_of_nodup_map hnodup h h' hop

theorem find?_opcode_eq {row : Row} {cmd : Word} (h : row ∈ commandTable) (hop : opcodeOf row.pattern = opcodeOf cmd) :
    commandTable.find? (fun row => opcodeOf row.pattern == opcodeOf cmd) = some row := by
  cases hfind : commandTable.find? (fun row => opcodeOf row.pattern == opcodeOf cmd) with
  | none => exact absurd hop (by simpa using List.find?_eq_none.mp hfind row h)
  | some found =>
    have hfound : opcodeOf found.pattern = opcodeOf cmd := by simpa using List.find?_some hfind
    rw [row_eq_of_opcode_eq (List.mem_of_find?_eq_some hfind) h (hfound.trans hop.symm)]

/-! ## What the decoder accepts -/

theorem decode_of_matches {row : Row} {cmd : Word} (h : row ∈ commandTable) (hm : cmd &&& row.mask = row.pattern) :
    decode cmd = .ok (row.build cmd) := by
  simp only [decode, find?_opcode_eq h (opcodeOf_of_matches h hm), if_pos hm]

/-- A word decodes to a command exactly when it matches a row that builds the command from it (30_encoding.md R73, R78). -/
theorem decode_eq_ok_iff {cmd : Word} {i : Instr} :
    decode cmd = .ok i ↔ ∃ row ∈ commandTable, cmd &&& row.mask = row.pattern ∧ row.build cmd = i := by
  constructor
  · intro h
    unfold decode at h
    split at h
    · cases h
    · next row hfind =>
      split at h
      · next hm => exact ⟨row, List.mem_of_find?_eq_some hfind, hm, Except.ok.inj h⟩
      · cases h
  · rintro ⟨row, hrow, hm, rfl⟩
    exact decode_of_matches hrow hm

/-! ## What a row builds -/

/-- The row's format assigns the `k` low bits of the operand field: the mask holds all other operand bits, and the command built
from a word has the row's opcode and, as operands, those `k` bits of the word (30_encoding.md R71, R72). -/
structure Row.AssignsLowBits (row : Row) (k : Nat) : Prop where
  maskBits : ∀ n, n < 24 → (operandOf row.mask).getLsbD n = decide (k ≤ n)
  opcode : ∀ cmd, (row.build cmd).opcode = opcodeOf row.pattern
  operands : ∀ cmd, (row.build cmd).operandField = (cmd.extractLsb' 0 k).setWidth 24

/-- The two sides of SETDIM lie next to each other (30_encoding.md R71, format D). -/
theorem operandField_setdim (cmd : Word) :
    (Instr.setdim (cmd.extractLsb' 0 8) (cmd.extractLsb' 8 8)).operandField = (cmd.extractLsb' 0 16).setWidth 24 := by
  ext n hn
  by_cases h8 : n < 8
  · simp [Instr.operandField, h8, show n < 16 by omega]
  · have hsum : 8 + (n - 8) = n := by omega
    simp [Instr.operandField, h8, hsum, show n - 8 < 8 ↔ n < 16 by omega]

theorem setWidth_extractLsb'_zero (cmd : Word) : 0 = (cmd.extractLsb' 0 0).setWidth 24 := by
  ext n hn; simp

/-- The formats of the 19 rows: N assigns no bit, M two, D sixteen, P ten, C all, B eight, X four; in the table's order
(30_encoding.md R71, R73). -/
theorem exists_assignsLowBits {row : Row} (h : row ∈ commandTable) : ∃ k, row.AssignsLowBits k := by
  simp only [commandTable, List.mem_cons, List.not_mem_nil, or_false] at h
  rcases h with rfl | rfl | rfl | rfl | rfl | rfl | rfl | rfl | rfl | rfl | rfl | rfl | rfl | rfl | rfl | rfl | rfl | rfl | rfl
  · exact ⟨0, by decide, fun _ => rfl, setWidth_extractLsb'_zero⟩
  · exact ⟨2, by decide, fun _ => rfl, fun _ => rfl⟩
  · exact ⟨16, by decide, fun _ => rfl, operandField_setdim⟩
  · exact ⟨10, by decide, fun _ => rfl, fun _ => rfl⟩
  · exact ⟨0, by decide, fun _ => rfl, setWidth_extractLsb'_zero⟩
  · exact ⟨24, by decide, fun _ => rfl, fun _ => (BitVec.setWidth_eq _).symm⟩
  · exact ⟨8, by decide, fun _ => rfl, fun _ => rfl⟩
  · exact ⟨4, by decide, fun _ => rfl, fun _ => rfl⟩
  · exact ⟨0, by decide, fun _ => rfl, setWidth_extractLsb'_zero⟩
  · exact ⟨4, by decide, fun _ => rfl, fun _ => rfl⟩
  · exact ⟨0, by decide, fun _ => rfl, setWidth_extractLsb'_zero⟩
  · exact ⟨0, by decide, fun _ => rfl, setWidth_extractLsb'_zero⟩
  · exact ⟨4, by decide, fun _ => rfl, fun _ => rfl⟩
  · exact ⟨0, by decide, fun _ => rfl, setWidth_extractLsb'_zero⟩
  · exact ⟨0, by decide, fun _ => rfl, setWidth_extractLsb'_zero⟩
  · exact ⟨24, by decide, fun _ => rfl, fun _ => (BitVec.setWidth_eq _).symm⟩
  · exact ⟨0, by decide, fun _ => rfl, setWidth_extractLsb'_zero⟩
  · exact ⟨0, by decide, fun _ => rfl, setWidth_extractLsb'_zero⟩
  · exact ⟨0, by decide, fun _ => rfl, setWidth_extractLsb'_zero⟩

theorem opcode_build {row : Row} (h : row ∈ commandTable) (cmd : Word) : (row.build cmd).opcode = opcodeOf row.pattern := by
  obtain ⟨_, format⟩ := exists_assignsLowBits h
  exact format.opcode cmd

/-- A matching word has no bit set that its row does not read. -/
theorem operandField_build {row : Row} {cmd : Word} (h : row ∈ commandTable) (hm : cmd &&& row.mask = row.pattern) :
    (row.build cmd).operandField = operandOf cmd := by
  obtain ⟨k, format⟩ := exists_assignsLowBits h
  have hreserved : operandOf cmd &&& operandOf row.mask = 0 := by rw [← operandOf_and, hm, operandOf_pattern h]
  rw [format.operands]
  apply BitVec.eq_of_getLsbD_eq
  intro n hn
  by_cases hk : n < k
  · simp [operandOf, hn, hk]
  · have hbit := congrArg (BitVec.getLsbD · n) hreserved
    simp only [BitVec.getLsbD_and, format.maskBits n hn, Nat.le_of_not_lt hk, decide_true, Bool.and_true] at hbit
    simp [hbit, hk]

/-! ## The encoder -/

/-- A word is its opcode field and its operand field (30_encoding.md R70). -/
theorem word_eq_of_fields_eq {v w : Word} (hop : opcodeOf v = opcodeOf w) (hoperand : operandOf v = operandOf w) : v = w := by
  have join (u : Word) : opcodeOf u ++ operandOf u = u := by
    rw [opcodeOf, operandOf, BitVec.extractLsb'_append_extractLsb'_eq_extractLsb' (by rfl)]
    exact BitVec.extractLsb'_eq_self
  rw [← join v, ← join w, hop, hoperand]

theorem encode_build {row : Row} {cmd : Word} (h : row ∈ commandTable) (hm : cmd &&& row.mask = row.pattern) :
    encode (row.build cmd) = cmd := by
  apply word_eq_of_fields_eq
  · rw [opcodeOf_encode, opcode_build h, opcodeOf_of_matches h hm]
  · rw [operandOf_encode, operandField_build h hm]

/-- A low field of an encoded command is the operand that the operand field is made of. -/
theorem extractLsb'_encode {i : Instr} {k : Nat} {x : BitVec k} (hfield : i.operandField = x.setWidth 24)
    (hk : k ≤ 24 := by decide) : (encode i).extractLsb' 0 k = x := by
  apply BitVec.eq_of_getLsbD_eq
  intro n hn
  have h24 : n < 24 := by omega
  rw [BitVec.getLsbD_extractLsb', zero_add, getLsbD_encode i n (by omega), if_pos h24, hfield]
  simp [hn, h24]

theorem width_encode_setdim (w h : Byte) : (encode (.setdim w h)).extractLsb' 0 8 = w := by
  apply BitVec.eq_of_getLsbD_eq
  intro n hn
  rw [BitVec.getLsbD_extractLsb', zero_add, getLsbD_encode _ n (by omega), if_pos (by omega)]
  simp [Instr.operandField, hn, show n < 24 by omega]

theorem height_encode_setdim (w h : Byte) : (encode (.setdim w h)).extractLsb' 8 8 = h := by
  apply BitVec.eq_of_getLsbD_eq
  intro n hn
  rw [BitVec.getLsbD_extractLsb', getLsbD_encode _ (8 + n) (by omega), if_pos (by omega)]
  simp [Instr.operandField, hn, show 8 + n < 24 by omega]

/-- Decoding an encoded command, given the place of the command's row: the row with the command's opcode is the one that its
encoding matches. -/
theorem decode_encode_of_row {i : Instr} (hmatches : Laws.MatchesItsRow.Statement i) (k : Fin 19)
    (hop : opcodeOf (commandTable.get k).pattern = i.opcode) (hbuild : (commandTable.get k).build (encode i) = i) :
    decode (encode i) = .ok i := by
  obtain ⟨row, hrow, hm, hrowop⟩ := hmatches
  obtain rfl : row = commandTable.get k := row_eq_of_opcode_eq hrow (List.get_mem _ _) (hrowop.trans hop.symm)
  rw [decode_of_matches hrow hm, hbuild]

open Laws in
theorem decode_encode (i : Instr) : decode (encode i) = .ok i := by
  cases i with
  | nop => exact decode_encode_of_row MatchesItsRow.nop 0 rfl rfl
  | setmode m => exact decode_encode_of_row (MatchesItsRow.setmode m) 1 rfl (congrArg Instr.setmode (extractLsb'_encode rfl))
  | setdim w h =>
    exact decode_encode_of_row (MatchesItsRow.setdim w h) 2 rfl
      (congrArg₂ Instr.setdim (width_encode_setdim w h) (height_encode_setdim w h))
  | setptr p => exact decode_encode_of_row (MatchesItsRow.setptr p) 3 rfl (congrArg Instr.setptr (extractLsb'_encode rfl))
  | clrpal => exact decode_encode_of_row MatchesItsRow.clrpal 4 rfl rfl
  | wrpix c =>
    exact decode_encode_of_row (MatchesItsRow.wrpix c) 5 rfl (congrArg Instr.wrpix (operandOf_encode (.wrpix c)))
  | pushpal b => exact decode_encode_of_row (MatchesItsRow.pushpal b) 6 rfl (congrArg Instr.pushpal (extractLsb'_encode rfl))
  | wridx v => exact decode_encode_of_row (MatchesItsRow.wridx v) 7 rfl (congrArg Instr.wridx (extractLsb'_encode rfl))
  | rdpix => exact decode_encode_of_row MatchesItsRow.rdpix 8 rfl rfl
  | rdpal k => exact decode_encode_of_row (MatchesItsRow.rdpal k) 9 rfl (congrArg Instr.rdpal (extractLsb'_encode rfl))
  | rdidx => exact decode_encode_of_row MatchesItsRow.rdidx 10 rfl rfl
  | rdout => exact decode_encode_of_row MatchesItsRow.rdout 11 rfl rfl
  | rdreg r => exact decode_encode_of_row (MatchesItsRow.rdreg r) 12 rfl (congrArg Instr.rdreg (extractLsb'_encode rfl))
  | buildpal => exact decode_encode_of_row MatchesItsRow.buildpal 13 rfl rfl
  | quant => exact decode_encode_of_row MatchesItsRow.quant 14 rfl rfl
  | quant1 c =>
    exact decode_encode_of_row (MatchesItsRow.quant1 c) 15 rfl (congrArg Instr.quant1 (operandOf_encode (.quant1 c)))
  | pack => exact decode_encode_of_row MatchesItsRow.pack 16 rfl rfl
  | convert => exact decode_encode_of_row MatchesItsRow.convert 17 rfl rfl
  | clrerr => exact decode_encode_of_row MatchesItsRow.clrerr 18 rfl rfl

/-- Settles O1: the encoding matches the command's row, which reads the operands back from their fields. -/
theorem decodeOfEncodeIsTheCommand : Obligations.DecodeOfEncodeIsTheCommand := decode_encode

/-- Settles O2: the word matches a row, and encoding what the row builds from it gives both its fields back. -/
theorem wordOfACommandIsItsEncoding : Obligations.WordOfACommandIsItsEncoding := by
  intro cmd i h
  obtain ⟨row, hrow, hm, rfl⟩ := decode_eq_ok_iff.mp h
  exact encode_build hrow hm

/-- Settles O3: the row that the decoder found has the opcode of the row's command, and so is the row. -/
theorem decoderFollowsMatchAndMask : Obligations.DecoderFollowsMatchAndMask := by
  intro cmd row hrow
  constructor
  · exact decode_of_matches hrow
  · intro h
    obtain ⟨found, hfound, hm, hbuild⟩ := decode_eq_ok_iff.mp h
    have hop : opcodeOf found.pattern = opcodeOf row.pattern := by
      rw [← opcode_build hfound cmd, hbuild, opcode_build hrow]
    rwa [row_eq_of_opcode_eq hfound hrow hop] at hm

/-- Settles O4: closed words, evaluated. -/
theorem wordsOfTheVectorsDecode : Obligations.WordsOfTheVectorsDecode := by
  unfold Obligations.WordsOfTheVectorsDecode
  decide

end Sys2Proof

namespace Sys2Proof.Machine

/-! ## The step that takes a word -/

theorem step_command {s : State} {cmd : Word} {rest : List HostEvent} (h : s.inbox = .command cmd :: rest) :
    step s = runWord cmd { s with inbox := rest } := by
  simp [step, takeEvent, h, runEvent]

theorem step_idle {s : State} (h : s.inbox = []) : step s = .next s := by
  simp [step, takeEvent, h, idle]

theorem runWord_ok {cmd : Word} {i : Instr} (h : decode cmd = .ok i) (s : State) : runWord cmd s = exec i s := by
  simp [runWord, h]

theorem runWord_error {cmd : Word} {e : DecodeError} (h : decode cmd = .error e) (s : State) :
    runWord cmd s = .next (illegalWord cmd s) := by
  simp [runWord, h]

theorem runWord_next (cmd : Word) (s : State) : ∃ t, runWord cmd s = .next t := by
  cases hdecode : decode cmd with
  | ok i => rw [runWord_ok hdecode]; exact exec_next i s
  | error e => rw [runWord_error hdecode]; exact ⟨_, rfl⟩

/-- The three ends of a word, command or not: it responds, it traps from READY, or FAULTED rejects it (30_encoding.md R79). -/
theorem runWord_cases {cmd : Word} {s t : State} (h : runWord cmd s = .next t) :
    (∃ d u, t = respond d u ∧ u.rsps = s.rsps ∧ u.inbox = s.inbox) ∨ (s.err = 0 ∧ ∃ c d, t = raise c d s) ∨
      (s.err ≠ 0 ∧ t = reject s) := by
  cases hdecode : decode cmd with
  | ok i =>
    rw [runWord_ok hdecode] at h
    obtain ⟨d, u, ht, hrsps, hinbox, _⟩ | ⟨ready, c, _, d, ht⟩ | ⟨faulted, ht, _⟩ := exec_cases i s t h
    · exact .inl ⟨d, u, ht, hrsps, hinbox⟩
    · exact .inr (.inl ⟨ready, c, d, ht⟩)
    · exact .inr (.inr ⟨faulted, ht⟩)
  | error e =>
    rw [runWord_error hdecode] at h
    obtain rfl := Host.Outcome.next.inj h
    exact .inr ((illegalWord_cases cmd s).imp (fun ⟨ready, ht⟩ => ⟨ready, _, _, ht⟩) id)

/-- Settles O11: each end of a word appends one response word, whose fields are read off. -/
theorem oneWellFormedResponsePerWord : Obligations.OneWellFormedResponsePerWord := by
  intro s cmd rest hinbox
  obtain ⟨t, hrun⟩ := runWord_next cmd { s with inbox := rest }
  have hstep : step s = .next t := (step_command hinbox).trans hrun
  obtain ⟨d, u, rfl, hrsps, hrest⟩ | ⟨ready, c, d, rfl⟩ | ⟨faulted, rfl⟩ := runWord_cases hrun
  · exact ⟨_, responseWord statusOk d, hstep, hrest, by rw [respond_rsps, hrsps], responseWord_zero_field _ _,
      .inl (statusOf_responseWord _ _)⟩
  · refine ⟨_, responseWord c.code d, hstep, rfl, rfl, responseWord_zero_field _ _, .inr (.inl ?_)⟩
    rw [statusOf_responseWord, dataOf_responseWord]
    exact ⟨(code_range c).1, (code_range c).2, ready, rfl, rfl⟩
  · refine ⟨_, responseWord statusRejected (s.err.setWidth 24), hstep, rfl, rfl, responseWord_zero_field _ _, .inr (.inr ?_)⟩
    rw [statusOf_responseWord, dataOf_responseWord]
    exact ⟨rfl, faulted, rfl⟩

/-- Settles O6: the step takes the word from the inbox, and the decoder's answer selects the command's meaning. -/
theorem stepRunsTheDecodedCommand : Obligations.StepRunsTheDecodedCommand := by
  intro s cmd rest i hinbox hdecode
  rw [step_command hinbox, runWord_ok hdecode]

/-- Settles O10, by what the host presents next. -/
theorem everyStepHasANextState : Obligations.EveryStepHasANextState := by
  intro s
  match hinbox : s.inbox with
  | [] => exact ⟨s, step_idle hinbox⟩
  | .reset :: rest => exact ⟨_, step_reset hinbox⟩
  | .command cmd :: rest => rw [step_command hinbox]; exact runWord_next cmd _

/-! ## Operand values outside their range -/

/-- The commands whose operand alone is illegal (30_encoding.md R74). -/
theorem not_wellFormed_cases {i : Instr} (hi : i.wellFormed = false) :
    i = .setmode 3 ∨ (∃ w h, i = .setdim w h ∧ (legalDim w && legalDim h) = false) ∨ ∃ r, i = .rdreg r ∧ 6 < r.toNat := by
  cases i with
  | setmode m => exact .inl (congrArg Instr.setmode (by simpa [Instr.wellFormed] using hi))
  | setdim w h => exact .inr (.inl ⟨w, h, rfl, by rw [← hi]; simp only [legalDim, Instr.wellFormed, Bool.and_assoc]⟩)
  | rdreg r => exact .inr (.inr ⟨r, rfl, by simpa [Instr.wellFormed] using hi⟩)
  | _ => cases hi

theorem traps_setmode_three {s : State} (ready : s.err = 0) :
    Traps (.setmode 3) s .illegalOperand (Instr.setmode 3).operandField :=
  ⟨_, by rw [exec, execSetmode, whenReady_ready ready]; rfl, raise_trapped _ _ s⟩

theorem traps_setdim {s : State} (ready : s.err = 0) {w h : Byte} (hdim : (legalDim w && legalDim h) = false) :
    Traps (.setdim w h) s .dimensionError (Instr.setdim w h).operandField :=
  ⟨_, by rw [exec, execSetdim, whenReady_ready ready, hdim, if_neg Bool.false_ne_true], raise_trapped _ _ s⟩

theorem traps_rdreg {s : State} (ready : s.err = 0) {r : Nibble} (hr : 6 < r.toNat) :
    Traps (.rdreg r) s .illegalOperand (Instr.rdreg r).operandField := by
  have hnone : regWord s r = none := Option.not_isSome_iff_eq_none.mp (by simpa [regWord_isSome] using hr)
  exact ⟨_, by rw [exec, execRdreg, hnone, whenReady_ready ready], raise_trapped _ _ s⟩

/-- Settles O5: the decoder takes every operand value (O1), and the command's own rule traps. -/
theorem illegalOperandValuesTrap : Obligations.IllegalOperandValuesTrap := by
  intro i s ready hi
  refine ⟨decode_encode i, ?_⟩
  obtain rfl | ⟨w, h, rfl, hdim⟩ | ⟨r, rfl, hr⟩ := not_wellFormed_cases hi
  · exact .inl (traps_setmode_three ready)
  · exact .inr (traps_setdim ready hdim)
  · exact .inl (traps_rdreg ready hr)

end Sys2Proof.Machine

/-! # Proofs, family 40_config_and_data: configuration, data movement and status, command by command (40_config_and_data.md)

A command that passes its checks makes its `Effect` and responds with its `reply` (`Effect.completes`); the frame then is the one
of `written`. A command that fails a check takes the trap of that check. The two streams are runs with a closed end state. -/

namespace Sys2Proof

/-! ## The encoding of an operand -/

/-- A command with one operand `x` of at most 24 bits encodes to its opcode and `x` (30_encoding.md R71, R77). -/
theorem encode_eq_or {i : Instr} {k : Nat} {x : BitVec k} {base : Word} (op : Byte) (hop : i.opcode = op)
    (hfield : i.operandField = x.setWidth 24) (hbase : op.setWidth 32 <<< 24 = base := by decide)
    (hk : k ≤ 24 := by decide) : encode i = base ||| x.setWidth 32 := by
  rw [encode, hop, hbase, hfield, BitVec.setWidth_setWidth (h := by omega)]

theorem operandField_setdim_setWidth (w h : Byte) :
    (Instr.setdim w h).operandField.setWidth 32 = (h.setWidth 32 <<< 8) ||| w.setWidth 32 := by
  ext n hn
  by_cases h24 : n < 24
  · simp [Instr.operandField, h24]
  · simp [Instr.operandField, h24, BitVec.getLsbD_of_ge h (n - 8) (by omega), BitVec.getLsbD_of_ge w n (by omega)]

theorem encode_setdim (w h : Byte) : encode (.setdim w h) = 0x02000000 ||| (h.setWidth 32 <<< 8) ||| w.setWidth 32 := by
  have hop : (Instr.setdim w h).opcode = 0x02 := rfl
  have hbase : (0x02 : Byte).setWidth 32 <<< 24 = ((0x02000000 : ℕ) : Word) := by decide
  rw [encode, hop, hbase, operandField_setdim_setWidth, BitVec.or_assoc]

/-! ## Words with opcode 0 -/

theorem opcodeOf_setWidth (a : BitVec 24) : opcodeOf (a.setWidth 32) = 0 := by
  ext n hn
  simp [opcodeOf]

theorem operandOf_setWidth (a : BitVec 24) : operandOf (a.setWidth 32) = a := by
  ext n hn
  simp [operandOf, hn, show n < 32 by omega]

theorem eq_nop_of_opcode_eq_zero {i : Instr} (h : i.opcode = 0) : i = .nop := by
  cases i with
  | nop => rfl
  | _ => simp [Instr.opcode] at h

/-- The opcode 0 with an operand bit set is no command: NOP has no operand (40_config_and_data.md R90). -/
theorem exists_decode_error_of_operand_ne_zero {a : BitVec 24} (ha : a ≠ 0) : ∃ e, decode (a.setWidth 32) = .error e := by
  cases hdecode : decode (a.setWidth 32) with
  | error e => exact ⟨e, rfl⟩
  | ok i =>
    have hencode : encode i = a.setWidth 32 := wordOfACommandIsItsEncoding _ i hdecode
    have hop : i.opcode = 0 := by rw [← opcodeOf_encode, hencode, opcodeOf_setWidth]
    obtain rfl := eq_nop_of_opcode_eq_zero hop
    exact absurd (by rw [← operandOf_setWidth a, ← hencode, operandOf_encode]; rfl) ha

end Sys2Proof

namespace Sys2Proof.Machine

/-! ## How a command completes -/

/-- The response data of a command that completes from `s`; `u` is the state after its writes. -/
def reply (i : Instr) (s u : State) : BitVec 24 :=
  match i with
  | .nop | .setmode _ | .setdim _ _ | .setptr _ | .clrpal | .wrpix _ | .pushpal _ | .wridx _ | .quant | .clrerr => 0
  | .rdpix => pixAt s s.ptr.toNat
  | .rdpal k => (palAt s k.toNat).setWidth 24
  | .rdidx => (idxAt s s.ptr.toNat).setWidth 24
  | .rdout => (outAt s s.ptr.toNat).setWidth 24
  | .rdreg r => (regWord s r).getD 0
  | .quant1 c => BitVec.ofNat 24 (quantizeColour s c)
  | .buildpal => u.plen.setWidth 24
  | .pack | .convert => u.olen.setWidth 24

theorem exec_rdreg_of_some {s : State} {r : Nibble} {data : BitVec 24} (h : regWord s r = some data) :
    exec (.rdreg r) s = .next (respond data s) := by
  simp only [exec, execRdreg, h]

theorem pointerOutside_eq_false {s : State} (inside : s.ptr.toNat < 576) : pointerOutside s = false := by
  simpa [pointerOutside] using inside

/-- The envelope of a command in READY is its rule (30_encoding.md R79). -/
theorem next_whenReady {s t : State} (ready : s.err = 0) {rule : State → State} (h : rule s = t) :
    (.next (whenReady s rule) : Host.Outcome State Fault Refusal) = .next t :=
  congrArg Host.Outcome.next ((whenReady_ready ready rule).trans h)

/-- A command whose checks pass makes its change and responds: the converse of `exec_ends` for its first end. -/
theorem Effect.exec_eq {i : Instr} {s u : State} (effect : Effect s i u)
    (accepted : s.err = 0 ∨ acceptedInFaulted i = true) : exec i s = .next (respond (reply i s u) u) := by
  have ready (h : acceptedInFaulted i = false) : s.err = 0 := accepted.resolve_right (by simp [h])
  cases effect with
  | nop => rfl
  | setmode named => exact next_whenReady (ready rfl) (by simp only [named, reply])
  | setdim wLegal hLegal => exact next_whenReady (ready rfl) (by simp [wLegal, hLegal, reply])
  | setptr p => exact next_whenReady (ready rfl) rfl
  | clrpal => exact next_whenReady (ready rfl) rfl
  | wrpix c inside => exact next_whenReady (ready rfl) (by simp [pointerOutside_eq_false inside, reply])
  | pushpal valid room => exact next_whenReady (ready rfl) ((if_pos valid).trans (if_neg room))
  | wridx v inside => exact next_whenReady (ready rfl) (by simp [pointerOutside_eq_false inside, reply])
  | rdpix inside => exact next_whenReady (ready rfl) (by simp [pointerOutside_eq_false inside, reply])
  | rdpal k inside => exact next_whenReady (ready rfl) (if_neg (Nat.not_le_of_lt inside))
  | rdidx inside => exact next_whenReady (ready rfl) (by simp [pointerOutside_eq_false inside, reply])
  | rdout inside => exact next_whenReady (ready rfl) (if_neg (Nat.not_le_of_lt inside))
  | rdreg defined =>
    obtain ⟨data, hdata⟩ := Option.isSome_iff_exists.mp defined
    rw [exec_rdreg_of_some hdata, reply, hdata, Option.getD_some]
  | buildpal configured counted =>
    exact next_whenReady (ready rfl) (by simp [unconfigured_iff.mpr configured, counted, reply])
  | quant configured usable =>
    exact next_whenReady (ready rfl)
      (by simp [unconfigured_iff.mpr configured, paletteUnusable_iff.mpr usable, reply])
  | quant1 c usable => exact next_whenReady (ready rfl) (by simp [paletteUnusable_iff.mpr usable, reply])
  | pack packable inRange =>
    exact next_whenReady (ready rfl) (by simp only [packableSize_iff.mpr packable, inRange, reply]; rfl)
  | convert packable counted =>
    exact next_whenReady (ready rfl) (by simp only [packableSize_iff.mpr packable, counted, reply]; rfl)
  | clrerr => rfl

theorem Effect.rsps_eq {i : Instr} {s u : State} (effect : Effect s i u) : u.rsps = s.rsps := by
  cases effect <;> rfl

/-- The frame of a command's change, seen after the response. -/
theorem Effect.frame {i : Instr} {s u : State} (effect : Effect s i u) (data : BitVec 24) :
    OnlyChanges (written i) s (respond data u) :=
  (onlyChanges_respond_right _ data s u).mpr effect.onlyChanges

theorem Effect.completes {i : Instr} {s u : State} (effect : Effect s i u)
    (accepted : s.err = 0 ∨ acceptedInFaulted i = true) {post : State → Prop} (h : post (respond (reply i s u) u)) :
    Completes i s (reply i s u) post :=
  ⟨_, effect.exec_eq accepted, by rw [Responds, respond_rsps, effect.rsps_eq], h⟩

/-! ## How a command traps -/

/-- PTR outside PIX and IDX (60_exceptions.md R205). -/
theorem traps_atPointer {i : Instr} {s : State} {rule : State → State} (ready : s.err = 0) (outside : 575 < s.ptr.toNat)
    (hrule : exec i s = .next (whenReady s fun s => if pointerOutside s then raisePointer s else rule s)) :
    Traps i s .pointerRange (s.ptr.setWidth 24) := by
  have hcheck : pointerOutside s = true := decide_eq_true outside
  exact ⟨_, hrule.trans (next_whenReady ready (if_pos hcheck)), raise_trapped _ _ s⟩

theorem traps_pushpal_invalid {s : State} (ready : s.err = 0) {b : Byte} (hb : ¬ IsHardwareByte s.ref b) :
    Traps (.pushpal b) s .illegalOperand (Instr.pushpal b).operandField :=
  ⟨_, next_whenReady ready (if_neg (mt validHw_iff.mp hb)), raise_trapped _ _ s⟩

theorem traps_pushpal_full {s : State} (ready : s.err = 0) {b : Byte} (hb : IsHardwareByte s.ref b) (full : s.plen = 16) :
    Traps (.pushpal b) s .paletteRange (s.plen.setWidth 24) :=
  ⟨_, next_whenReady ready ((if_pos (validHw_iff.mpr hb)).trans (if_pos full)), raise_trapped _ _ s⟩

theorem regWord_eq_none {r : Nibble} (hr : 6 < r.toNat) (s : State) : regWord s r = none :=
  Option.not_isSome_iff_eq_none.mp (by simpa [regWord_isSome] using hr)

/-- RDREG of a reserved register number in FAULTED (40_config_and_data.md R102). -/
theorem exec_rdreg_rejected {s : State} (faulted : s.err ≠ 0) {r : Nibble} (hr : 6 < r.toNat) :
    exec (.rdreg r) s = .next (reject s) := by
  rw [exec, execRdreg, regWord_eq_none hr s, whenReady_faulted faulted]

/-! ## Operand and register values -/

theorem legalDim_iff {d : Byte} : legalDim d = true ↔ 1 ≤ d.toNat ∧ d.toNat ≤ 24 := by
  simp [legalDim]

/-- The 5-bit register holds a legal side whole (10_state.md R24). -/
theorem toNat_setWidth_of_legalDim {d : Byte} (h : legalDim d = true) : (d.setWidth 5).toNat = d.toNat := by
  obtain ⟨_, hle⟩ := legalDim_iff.mp h
  rw [BitVec.toNat_setWidth]
  omega

/-- The modes are the 2-bit values other than 3 (10_state.md R23). -/
theorem exists_mode_of_bits_ne_three {m : BitVec 2} (h : m ≠ 3) :
    ∃ mode, ScreenMode.ofBits m = some mode ∧ mode.bits = m := by
  obtain rfl | rfl | rfl : m = 0 ∨ m = 1 ∨ m = 2 := by bv_omega
  · exact ⟨.mode0, rfl, rfl⟩
  · exact ⟨.mode1, rfl, rfl⟩
  · exact ⟨.mode2, rfl, rfl⟩

theorem toNat_plen_add_one {s : State} (h : s.plen.toNat < 16) : (s.plen + 1).toNat = s.plen.toNat + 1 := by
  bv_omega

theorem completes_rdreg {s : State} {r : Nibble} {data : BitVec 24} (h : regWord s r = some data) :
    Completes (.rdreg r) s data (OnlyChanges [] s) :=
  ⟨_, exec_rdreg_of_some h, respond_responds data s, onlyChanges_respond data s⟩

/-! ## Illegal words -/

theorem illegalWord_trapped (cmd : Word) {s : State} (ready : s.err = 0) :
    Trapped .illegalCommand ((opcodeOf cmd).setWidth 24) s (illegalWord cmd s) := by
  rw [illegalWord, whenReady_ready ready]
  exact raise_trapped _ _ s

theorem illegalWord_rejected (cmd : Word) {s : State} (faulted : s.err ≠ 0) : Rejected s (illegalWord cmd s) := by
  rw [illegalWord, whenReady_faulted faulted]
  exact reject_rejected s

/-! ## The configuration commands -/

/-- Settles O25: NOP writes nothing, and a word with opcode 0 is NOP's or no command's. -/
theorem nopRespondsAndChangesNothing : Obligations.NopRespondsAndChangesNothing := by
  refine ⟨by decide, fun s => Effect.nop.completes (.inr rfl) (Effect.nop.frame 0), fun a s rest ha hinbox => ?_⟩
  obtain ⟨e, herror⟩ := exists_decode_error_of_operand_ne_zero ha
  refine ⟨_, (step_command hinbox).trans (runWord_error herror _), fun ready => ?_, fun faulted => ?_⟩
  · have htrap := illegalWord_trapped (a.setWidth 32) (s := { s with inbox := rest }) ready
    rwa [opcodeOf_setWidth] at htrap
  · exact illegalWord_rejected _ (s := { s with inbox := rest }) faulted

/-- Settles O26: every operand but 3 names a mode. -/
theorem setmodeWritesModeOnly : Obligations.SetmodeWritesModeOnly := by
  refine fun m s ready => ⟨encode_eq_or 0x01 rfl rfl, fun hm => ?_, ?_⟩
  · obtain ⟨mode, named, hbits⟩ := exists_mode_of_bits_ne_three hm
    have effect : Effect s (.setmode m) _ := .setmode named
    exact effect.completes (.inl ready) ⟨hbits, effect.frame 0⟩
  · rintro rfl
    exact traps_setmode_three ready

/-- Settles O27: both sides are checked before either is written. -/
theorem setdimWritesBothDimensions : Obligations.SetdimWritesBothDimensions := by
  refine fun w h s ready => ⟨encode_setdim w h, fun ⟨w1, w24, h1, h24⟩ => ?_, fun hout => ?_⟩
  · have wLegal := legalDim_iff.mpr ⟨w1, w24⟩
    have hLegal := legalDim_iff.mpr ⟨h1, h24⟩
    have effect : Effect s (.setdim w h) _ := .setdim wLegal hLegal
    exact effect.completes (.inl ready)
      ⟨toNat_setWidth_of_legalDim wLegal, toNat_setWidth_of_legalDim hLegal, effect.frame 0⟩
  · refine traps_setdim ready (Bool.eq_false_iff.mpr fun hlegal => ?_)
    obtain ⟨hw, hh⟩ := Bool.and_eq_true_iff.mp hlegal
    have hw' := legalDim_iff.mp hw
    have hh' := legalDim_iff.mp hh
    omega

/-- Settles O28: SETPTR checks nothing. -/
theorem setptrWritesPointerOnly : Obligations.SetptrWritesPointerOnly := by
  intro p s ready
  have effect := Effect.setptr (s := s) p
  exact ⟨encode_eq_or 0x03 rfl rfl, effect.completes (.inl ready) ⟨rfl, effect.frame 0⟩⟩

/-- Settles O29: with PLEN 0 no entry is below it. -/
theorem clrpalEmptiesThePalette : Obligations.ClrpalEmptiesThePalette := by
  refine ⟨by decide, fun s ready => Effect.clrpal.completes (.inl ready) ⟨rfl, ?_, fun i => ?_⟩⟩
  · exact (Effect.clrpal.frame 0).mono (by simp [written])
  · exact traps_rdpal (s := respond 0 (clearPalette s)) ready (Nat.zero_le i.toNat)

/-! ## The writes -/

/-- Settles O30: the write at PTR and the check before it. -/
theorem wrpixStoresOnePixel : Obligations.WrpixStoresOnePixel := by
  refine fun c s ready => ⟨encode_eq_or 0x10 rfl (BitVec.setWidth_eq c).symm, fun hptr => ?_, fun outside => ?_⟩
  · have inside : s.ptr.toNat < 576 := by omega
    have effect := Effect.wrpix c inside
    refine effect.completes (.inl ready) ⟨?_, fun k hk => ?_, (toNat_ptr_add_one inside).1, effect.frame 0⟩
    · simp [pixAt_writePix]
    · simp [pixAt_writePix, hk]
  · exact traps_atPointer ready outside rfl

/-- Settles O31: the byte is checked first, then the palette's room. -/
theorem pushpalAppendsOneEntry : Obligations.PushpalAppendsOneEntry := by
  refine fun b s ready => ⟨encode_eq_or 0x11 rfl rfl, traps_pushpal_invalid ready, fun hb full => ?_, fun hb room => ?_⟩
  · have htraps := traps_pushpal_full ready hb full
    rwa [full] at htraps
  · have hne : s.plen ≠ 16 := fun hfull => by simp [hfull] at room
    have effect := Effect.pushpal (validHw_iff.mpr hb) hne
    refine effect.completes (.inl ready) ⟨?_, fun i hi => ?_, toNat_plen_add_one room, effect.frame 0⟩
    · simp [palAt_appendPal]
    · simp [palAt_appendPal, hi]

/-- Settles O32: the write at PTR and the check before it. -/
theorem wridxStoresOneIndex : Obligations.WridxStoresOneIndex := by
  refine fun v s ready => ⟨encode_eq_or 0x12 rfl rfl, fun hptr => ?_, fun outside => ?_⟩
  · have inside : s.ptr.toNat < 576 := by omega
    have effect := Effect.wridx v inside
    refine effect.completes (.inl ready) ⟨?_, fun k hk => ?_, (toNat_ptr_add_one inside).1, effect.frame 0⟩
    · simp [idxAt_writeIdx]
    · simp [idxAt_writeIdx, hk]
  · exact traps_atPointer ready outside rfl

/-! ## The reads -/

/-- Settles O33: the read at PTR and the check before it. -/
theorem rdpixReturnsThePixel : Obligations.RdpixReturnsThePixel := by
  refine ⟨by decide, fun s ready => ⟨fun hptr => ?_, fun outside => traps_atPointer ready outside rfl⟩⟩
  have inside : s.ptr.toNat < 576 := by omega
  have effect := Effect.rdpix inside
  exact effect.completes (.inl ready) ⟨(toNat_ptr_add_one inside).1, effect.frame _⟩

/-- Settles O34: the read of an entry below PLEN and the check before it. -/
theorem rdpalReturnsTheEntry : Obligations.RdpalReturnsTheEntry := by
  refine fun i s ready => ⟨encode_eq_or 0x19 rfl rfl, fun inside => ?_, traps_rdpal ready⟩
  have effect := Effect.rdpal i inside
  exact effect.completes (.inl ready) (effect.frame _)

/-- Settles O35: the read at PTR and the check before it. -/
theorem rdidxReturnsTheIndex : Obligations.RdidxReturnsTheIndex := by
  refine ⟨by decide, fun s ready => ⟨fun hptr => ?_, fun outside => traps_atPointer ready outside rfl⟩⟩
  have inside : s.ptr.toNat < 576 := by omega
  have effect := Effect.rdidx inside
  exact effect.completes (.inl ready) ⟨(toNat_ptr_add_one inside).1, effect.frame _⟩

/-- The packed length is a 9-bit value, so a PTR below it can be incremented. -/
theorem toNat_ptr_add_one_of_lt_olen {s : State} (h : s.ptr.toNat < s.olen.toNat) :
    (s.ptr + 1).toNat = s.ptr.toNat + 1 :=
  (toNat_ptr_add_one (by omega)).1

/-- Settles O36: the read at PTR below OLEN and the check before it. -/
theorem rdoutReturnsThePackedByte : Obligations.RdoutReturnsThePackedByte := by
  refine ⟨by decide, fun s ready => ⟨fun inside => ?_, traps_rdout ready⟩⟩
  have effect := Effect.rdout inside
  exact effect.completes (.inl ready) ⟨toNat_ptr_add_one_of_lt_olen inside, effect.frame _⟩

/-! ## Status -/

/-- Settles O21: the trap return's fields. -/
theorem clrerrClearsErrorAndResults : Obligations.ClrerrClearsErrorAndResults :=
  ⟨by decide, fun _ => Effect.clrerr.completes (.inr rfl) ⟨rfl, rfl, rfl, rfl, Effect.clrerr.frame 0⟩⟩

/-- Settles O37, register by register. -/
theorem rdregReturnsTheRegisterWord : Obligations.RdregReturnsTheRegisterWord := by
  refine fun s => ⟨completes_rdreg rfl, completes_rdreg rfl, completes_rdreg rfl, completes_rdreg rfl, completes_rdreg rfl,
    completes_rdreg rfl, completes_rdreg rfl, fun r => ⟨encode_eq_or 0x1C rfl rfl, ?_, ?_⟩⟩
  · exact fun hr ready => traps_rdreg ready hr
  · exact fun hr faulted => ⟨_, exec_rdreg_rejected faulted hr, reject_rejected s⟩

/-! ## Streams -/

theorem execAll_cons {i : Instr} {s t : State} (h : exec i s = .next t) (is : List Instr) :
    execAll (i :: is) s = execAll is t := by
  rw [execAll, h]

/-- The state after a stream of WRPIX: the colours stand from PTR on, PTR is behind them, every command responded 0
(70_reset_and_hazards.md R231). -/
def loadPixels (s : State) (cs : List ColourWord) : State :=
  { s with
    pix := s.pix.writeAll s.ptr.toNat cs, ptr := BitVec.ofNat 10 (s.ptr.toNat + cs.length),
    rsps := s.rsps ++ List.replicate cs.length 0 }

theorem loadPixels_nil (s : State) : loadPixels s [] = s := by
  simp [loadPixels, Memory.writeAll]

/-- One WRPIX and then loading the rest is loading the whole list. -/
theorem loadPixels_cons {s : State} (inside : s.ptr.toNat < 576) (c : ColourWord) (cs : List ColourWord) :
    loadPixels (respond 0 (advancePtr (writePix s s.ptr.toNat c))) cs = loadPixels s (c :: cs) := by
  have hnext : (s.ptr + 1).toNat = s.ptr.toNat + 1 := (toNat_ptr_add_one inside).1
  have hlast : s.ptr.toNat + 1 + cs.length = s.ptr.toNat + (c :: cs).length := by rw [List.length_cons]; omega
  have hrsps : s.rsps ++ [responseWord statusOk 0] ++ List.replicate cs.length 0 =
      s.rsps ++ List.replicate (c :: cs).length 0 := by
    rw [List.length_cons, List.replicate_succ, ← List.append_cons]
    rfl
  simp only [loadPixels, respond_pix, respond_ptr, respond_rsps, advancePtr_pix, advancePtr_ptr, advancePtr_rsps,
    writePix_pix, writePix_ptr, writePix_rsps, hnext, hlast, hrsps, Memory.writeAll]
  rfl

theorem execAll_wrpix {s : State} (ready : s.err = 0) {cs : List ColourWord} (hfits : s.ptr.toNat + cs.length ≤ 576) :
    execAll (cs.map Instr.wrpix) s = .next (loadPixels s cs) := by
  induction cs generalizing s with
  | nil => rw [loadPixels_nil]; rfl
  | cons c cs ih =>
    rw [List.length_cons] at hfits
    have inside : s.ptr.toNat < 576 := by omega
    have hnext : (s.ptr + 1).toNat = s.ptr.toNat + 1 := (toNat_ptr_add_one inside).1
    have hrest : (s.ptr + 1).toNat + cs.length ≤ 576 := by omega
    rw [List.map_cons, execAll_cons ((Effect.wrpix c inside).exec_eq (.inl ready)), ← loadPixels_cons inside]
    exact ih ready hrest

theorem pixAt_loadPixels_inside {s : State} {cs : List ColourWord} {k : Nat} {c : ColourWord} (h : cs[k]? = some c) :
    pixAt (loadPixels s cs) (s.ptr.toNat + k) = c := by
  obtain ⟨hk, rfl⟩ := List.getElem?_eq_some_iff.mp h
  simp [pixAt, loadPixels, Memory.read_writeAll, hk]

theorem pixAt_loadPixels_outside {s : State} {cs : List ColourWord} {k : Nat}
    (h : k < s.ptr.toNat ∨ s.ptr.toNat + cs.length ≤ k) : pixAt (loadPixels s cs) k = pixAt s k := by
  rw [pixAt, loadPixels, Memory.read_writeAll, if_neg (by omega), pixAt]

theorem onlyChanges_loadPixels (s : State) (cs : List ColourWord) : OnlyChanges [.pix, .ptr] s (loadPixels s cs) := by
  intro f hf; cases f <;> simp_all [Unchanged, loadPixels, idxAt, palAt, outAt]

/-- Settles O38: the run of the stream ends in `loadPixels`. -/
theorem wrpixStreamLoadsTheImageInOrder : Obligations.WrpixStreamLoadsTheImageInOrder := by
  intro cs s ready hfits
  have hptr : (loadPixels s cs).ptr.toNat = s.ptr.toNat + cs.length := by
    rw [loadPixels, BitVec.toNat_ofNat]; omega
  exact ⟨loadPixels s cs, execAll_wrpix ready hfits, fun k c h => pixAt_loadPixels_inside h,
    fun k h => pixAt_loadPixels_outside h, hptr, onlyChanges_loadPixels s cs, rfl⟩

/-- The response word of a successful RDOUT is the byte. -/
theorem responseWord_ok_byte (b : Byte) : responseWord statusOk (b.setWidth 24) = b.setWidth 32 := by
  have hstatus : statusOk.setWidth 32 <<< 28 = 0#32 := by decide
  rw [responseWord, hstatus, BitVec.zero_or, BitVec.setWidth_setWidth (h := by decide)]

/-- The state after `n` RDOUT: PTR is behind the bytes read, which were the responses (40_config_and_data.md R101). -/
def readImage (s : State) (n : Nat) : State :=
  { s with
    ptr := BitVec.ofNat 10 (s.ptr.toNat + n),
    rsps := s.rsps ++ (List.range' s.ptr.toNat n).map fun j => (outAt s j).setWidth 32 }

theorem readImage_zero (s : State) : readImage s 0 = s := by
  simp [readImage]

/-- One RDOUT and then reading the rest is reading all. -/
theorem readImage_succ {s : State} (inside : s.ptr.toNat < s.olen.toNat) (n : Nat) :
    readImage (respond ((outAt s s.ptr.toNat).setWidth 24) (advancePtr s)) n = readImage s (n + 1) := by
  have hnext : (s.ptr + 1).toNat = s.ptr.toNat + 1 := toNat_ptr_add_one_of_lt_olen inside
  have hlast : s.ptr.toNat + 1 + n = s.ptr.toNat + (n + 1) := by omega
  simp only [readImage, respond_ptr, respond_rsps, advancePtr_ptr, advancePtr_rsps, outAt_respond, outAt_advancePtr, hnext,
    hlast, responseWord_ok_byte, List.range'_succ, List.map_cons, ← List.append_cons]
  rfl

theorem execAll_rdout {s : State} (ready : s.err = 0) {n : Nat} (hinside : s.ptr.toNat + n ≤ s.olen.toNat) :
    execAll (List.replicate n Instr.rdout) s = .next (readImage s n) := by
  induction n generalizing s with
  | zero => rw [readImage_zero]; rfl
  | succ n ih =>
    have inside : s.ptr.toNat < s.olen.toNat := by omega
    have hnext : (s.ptr + 1).toNat = s.ptr.toNat + 1 := toNat_ptr_add_one_of_lt_olen inside
    have hrest : (s.ptr + 1).toNat + n ≤ s.olen.toNat := by omega
    rw [List.replicate_succ, execAll_cons ((Effect.rdout inside).exec_eq (.inl ready)), ← readImage_succ inside]
    exact ih ready hrest

theorem onlyChanges_readImage (s : State) (n : Nat) : OnlyChanges [.ptr] s (readImage s n) := by
  intro f hf; cases f <;> simp_all [Unchanged, readImage, pixAt, idxAt, palAt, outAt]

/-- Settles O39: the run of the stream ends in `readImage`, with PTR at OLEN. -/
theorem rdoutStreamReturnsTheWholeImage : Obligations.RdoutStreamReturnsTheWholeImage := by
  intro s ready hzero
  have hfrom : s.ptr.toNat = 0 := by rw [hzero]; rfl
  have hptr : (readImage s s.olen.toNat).ptr = s.olen.setWidth 10 := by
    simp only [readImage, hfrom, Nat.zero_add, BitVec.ofNat_toNat]
  have hlast : (readImage s s.olen.toNat).ptr.toNat = s.olen.toNat := by
    rw [hptr, BitVec.toNat_setWidth]; omega
  have htrap := traps_rdout (s := readImage s s.olen.toNat) ready hlast.ge
  rw [hptr, BitVec.setWidth_setWidth (h := by decide)] at htrap
  refine ⟨_, execAll_rdout ready (by omega), ?_, hlast, onlyChanges_readImage s _, htrap⟩
  rw [readImage, hfrom, List.range_eq_range']

end Sys2Proof.Machine

/-! # Proofs, family 41_palette_builder: counting, ranking and BUILDPAL (41_palette_builder.md)

The scan succeeds exactly on reference colours, and its counts are the colours' occurrences (`scanCounts_zeroCounts_ok_iff`): so
BUILDPAL's palette is the ranking of the occurrences, and the order of the pixels decides only which colour a failing scan names. -/

namespace Sys2Proof.Machine

/-! ## The scan from zero counts (R120) -/

theorem scanCounts_zeroCounts_ok_iff {ref : RefTable} {cs : List ColourWord} {cnt : Counts} :
    scanCounts ref cs zeroCounts = .ok cnt ↔
      (∀ c ∈ cs, IsReferenceColour ref c) ∧ ∀ f : FwIndex, cnt[f] = (cs.filterMap (fwOfRgb ref)).count f := by
  simp [scanCounts_ok_iff, fwOfRgb_isSome, zeroCounts]

theorem exists_scanCounts_ok {ref : RefTable} {cs : List ColourWord} (h : ∀ c ∈ cs, IsReferenceColour ref c) :
    ∃ cnt, scanCounts ref cs zeroCounts = .ok cnt :=
  ⟨Vector.ofFn fun f => (cs.filterMap (fwOfRgb ref)).count f, scanCounts_zeroCounts_ok_iff.mpr ⟨h, by simp⟩⟩

/-- Neither whether the scan succeeds nor its counts depend on the order of the pixels (R125). -/
theorem scanCounts_ok_of_perm {ref : RefTable} {cs cs' : List ColourWord} {cnt : Counts} (hperm : cs'.Perm cs)
    (h : scanCounts ref cs zeroCounts = .ok cnt) : scanCounts ref cs' zeroCounts = .ok cnt := by
  obtain ⟨hall, hcount⟩ := scanCounts_zeroCounts_ok_iff.mp h
  refine scanCounts_zeroCounts_ok_iff.mpr ⟨fun c hc => hall c (hperm.mem_iff.mp hc), fun f => ?_⟩
  rw [hcount f, (hperm.filterMap _).count_eq]

theorem fwOfRgb_eq_some_iff {ref : RefTable} (wf : ref.WellFormed) {c : ColourWord} {f : FwIndex} :
    fwOfRgb ref c = some f ↔ c = rgbOf ref f :=
  ⟨fun h => (fwOfRgb_some h).symm, fun h => h ▸ fwOfRgb_rgbOf wf f⟩

/-- By W2 the colour words are different, so a firmware index is looked up as often as its colour occurs. -/
theorem count_filterMap_fwOfRgb {ref : RefTable} (wf : ref.WellFormed) (cs : List ColourWord) (f : FwIndex) :
    (cs.filterMap (fwOfRgb ref)).count f = cs.count (rgbOf ref f) := by
  rw [List.count_filterMap, List.count_eq_countP]
  refine List.countP_congr fun c _ => ?_
  simpa using fwOfRgb_eq_some_iff wf

theorem count_of_scanCounts_ok {ref : RefTable} (wf : ref.WellFormed) {cs : List ColourWord} {cnt : Counts}
    (h : scanCounts ref cs zeroCounts = .ok cnt) (f : FwIndex) : cnt[f] = cs.count (rgbOf ref f) := by
  obtain ⟨_, hcount⟩ := scanCounts_zeroCounts_ok_iff.mp h
  rw [hcount f, count_filterMap_fwOfRgb wf]

theorem sum_map_count_finRange {n : Nat} (l : List (Fin n)) : ((List.finRange n).map fun f => l.count f).sum = l.length := by
  rw [← Fin.sum_univ_def, ← Multiset.coe_card, ← Multiset.sum_count_eq_card fun f _ => Finset.mem_univ f]
  simp only [Multiset.coe_count]

/-- Every pixel is counted once: the scan looks up each of them, and each index found is one of the 27. -/
theorem sum_of_scanCounts_ok {ref : RefTable} {cs : List ColourWord} {cnt : Counts}
    (h : scanCounts ref cs zeroCounts = .ok cnt) : ((List.finRange 27).map fun f => cnt[f]).sum = cs.length := by
  obtain ⟨hall, hcount⟩ := scanCounts_zeroCounts_ok_iff.mp h
  have hfound : (cs.filterMap (fwOfRgb ref)).length = cs.length :=
    List.filterMap_length_eq_length.mpr fun c hc => fwOfRgb_isSome.mpr (hall c hc)
  rw [funext hcount, sum_map_count_finRange, hfound]

/-- Settles O41: the scan succeeds, and its counts are the occurrences of the looked-up indices. -/
theorem scanCountsTheReferenceColours : Obligations.ScanCountsTheReferenceColours := by
  intro ref cs wf hall
  obtain ⟨cnt, hscan⟩ := exists_scanCounts_ok hall
  exact ⟨cnt, hscan, count_of_scanCounts_ok wf hscan, sum_of_scanCounts_ok hscan⟩

/-! ## The first unsupported pixel (R121) -/

theorem configured_of_lt_pixelCount {s : State} {k : Nat} (h : k < pixelCount s) : Configured s := by
  constructor <;> intro hzero <;> simp [pixelCount, hzero] at h

theorem scanCounts_pixels_error {s : State} {k : Nat} (hk : k < pixelCount s) (hbad : ¬ IsReferenceColour s.ref (pixAt s k))
    (hfirst : ∀ j, j < k → IsReferenceColour s.ref (pixAt s j)) :
    scanCounts s.ref (pixels s) zeroCounts = .error (pixAt s k) := by
  refine scanCounts_error s.ref (pixels s) zeroCounts k _ (by simp [pixels_getElem?, hk]) hbad fun j c hj hc => ?_
  have hjn : j < pixelCount s := hj.trans hk
  obtain rfl : pixAt s j = c := by simpa [pixels_getElem?, hjn] using hc
  exact hfirst j hj

theorem exec_buildpal_of_error {s : State} {c : ColourWord} (ready : s.err = 0) (configured : Configured s)
    (hscan : scanCounts s.ref (pixels s) zeroCounts = .error c) :
    exec .buildpal s = .next (raise .unsupportedColor c s) :=
  next_whenReady ready (by simp [unconfigured_iff.mpr configured, hscan])

theorem exec_convert_of_error {s : State} {c : ColourWord} (ready : s.err = 0) (packable : PackableSize s)
    (hscan : scanCounts s.ref (pixels s) zeroCounts = .error c) :
    exec .convert s = .next (raise .unsupportedColor c s) :=
  next_whenReady ready (by simp only [packableSize_iff.mpr packable, hscan]; rfl)

theorem Effect.err_eq_zero {i : Instr} {s u : State} (effect : Effect s i u) (ready : s.err = 0) : u.err = 0 := by
  cases effect with
  | clrerr => rfl
  | _ => exact ready

theorem code_injective {c c' : Cause} (h : c.code = c'.code) : c = c' := by
  revert h; cases c <;> cases c' <;> decide

/-- A command in READY leaves in ERR no code but those of the causes it can raise (60_exceptions.md R200). -/
theorem err_ne_code_of_not_mem_mayRaise {i : Instr} {s t : State} {c : Cause} (ready : s.err = 0)
    (h : exec i s = .next t) (hc : c ∉ mayRaise i) : t.err ≠ c.code := by
  intro herr
  cases exec_ends h with
  | completes data _ effect => exact code_ne_zero c (herr.symm.trans (effect.err_eq_zero ready))
  | traps info _ listed => exact hc (code_injective herr ▸ listed)
  | rejected faulted => exact faulted ready

/-- Settles O24: the scan stops at the first unsupported pixel, and the other commands do not list the cause. -/
theorem unsupportedColorReportsTheFirstPixel : Obligations.UnsupportedColorReportsTheFirstPixel := by
  refine fun s ready => ⟨fun k hk hbad hfirst => ?_, fun c t h => ?_⟩
  · have configured := configured_of_lt_pixelCount hk
    have hscan := scanCounts_pixels_error hk hbad hfirst
    exact ⟨⟨_, exec_buildpal_of_error ready configured hscan, raise_trapped _ _ s⟩, fun hwidth =>
      ⟨_, exec_convert_of_error ready ⟨configured, hwidth⟩ hscan, raise_trapped _ _ s⟩⟩
  · obtain h | h | h := h <;> exact err_ne_code_of_not_mem_mayRaise ready h (by simp [mayRaise])

/-! ## The palette (R122 to R124) -/

/-- A position below PLEN holds the colour of that rank. -/
theorem exists_rank_of_lt_plen {cnt : Counts} {s : State} {i : Nat} (hi : i < (buildPalette cnt s).plen.toNat) :
    ∃ h : i < (rank cnt).length, palAt (buildPalette cnt s) i = hwOf s.ref (rank cnt)[i] := by
  have hlen : i < (rank cnt).length := (plen_buildPalette cnt s ▸ hi).trans_le (Nat.min_le_left _ _)
  exact ⟨hlen, palAt_buildPalette cnt s i _ hi (List.getElem?_eq_getElem hlen)⟩

/-- No colour is ranked twice, and by W3 different colours have different hardware bytes. -/
theorem palAt_buildPalette_ne {cnt : Counts} {s : State} (wf : s.ref.WellFormed) {i j : Nat} (hij : i < j)
    (hj : j < (buildPalette cnt s).plen.toNat) : palAt (buildPalette cnt s) i ≠ palAt (buildPalette cnt s) j := by
  obtain ⟨hi', hpali⟩ := exists_rank_of_lt_plen (hij.trans hj)
  obtain ⟨hj', hpalj⟩ := exists_rank_of_lt_plen hj
  rw [hpali, hpalj]
  exact fun h => hij.ne ((rank_nodup cnt).getElem_inj_iff.mp (wf.2 _ _ h))

/-- A palette of occurrence counts is the ranked one. -/
theorem paletteIsRanked_buildPalette {cnt : Counts} {s : State} (hcnt : ∀ f : FwIndex, cnt[f] = occurrences s f) :
    PaletteIsRanked s (buildPalette cnt s) := by
  refine ⟨rank cnt, (rank_pairwise cnt).imp fun {f g} h => ?_, fun f => by rw [mem_rank, hcnt], plen_buildPalette cnt s,
    palAt_buildPalette cnt s⟩
  rwa [before_iff, hcnt, hcnt] at h

/-- Different used colours are all ranked. -/
theorem length_le_length_rank {cnt : Counts} {used : List FwIndex} (hnodup : used.Nodup)
    (hused : ∀ f ∈ used, 0 < cnt[f]) : used.length ≤ (rank cnt).length :=
  (hnodup.subperm fun f hf => (mem_rank cnt f).mpr (hused f hf)).length_le

theorem exists_occurrences_pos {s : State} (configured : Configured s) (hall : AllReference s) :
    ∃ f, 0 < occurrences s f := by
  have hn := pixelCount_pos configured
  obtain ⟨f, hf⟩ := hall 0 hn
  have hmem : pixAt s 0 ∈ pixels s := List.mem_of_getElem? (i := 0) (by rw [pixels_getElem?, if_pos hn])
  exact ⟨f, List.count_pos_iff.mpr (hf ▸ hmem)⟩

/-- On an image of reference colours BUILDPAL passes its checks, and the counts it ranks are the occurrences. -/
theorem exists_buildpal_effect {s : State} (configured : Configured s) (wf : s.ref.WellFormed) (hall : AllReference s) :
    ∃ cnt, Effect s .buildpal (buildPalette cnt s) ∧ ∀ f : FwIndex, cnt[f] = occurrences s f := by
  obtain ⟨cnt, hscan⟩ := exists_scanCounts_ok (allReference_iff.mp hall)
  exact ⟨cnt, .buildpal configured hscan, count_of_scanCounts_ok wf hscan⟩

/-- Settles O40: the palette is the ranking of the occurrences, of which at least one is positive. -/
theorem buildpalRanksTheUsedColours : Obligations.BuildpalRanksTheUsedColours := by
  intro s ready configured wf hall
  obtain ⟨cnt, effect, hcnt⟩ := exists_buildpal_effect configured wf hall
  obtain ⟨f, hf⟩ := exists_occurrences_pos configured hall
  have hlen : 1 ≤ (rank cnt).length := length_le_length_rank (List.nodup_singleton f) (by simpa [hcnt] using hf)
  have hcpm : 1 ≤ s.mode.cpm := by cases s.mode <;> decide
  have hplen := plen_buildPalette cnt s
  refine ⟨_, effect.exec_eq (.inl ready), rfl, paletteIsRanked_buildPalette hcnt, ?_, ?_,
    fun i j => palAt_buildPalette_ne wf, effect.frame _⟩
  · exact hplen ▸ le_min hlen hcpm
  · exact hplen ▸ min_le_right _ _

/-- Settles O43: the ranking holds every used colour, so the cut leaves the mode's capacity. -/
theorem paletteOverflowIsNoError : Obligations.PaletteOverflowIsNoError := by
  intro s used ready configured wf hall hnodup hused hmore
  obtain ⟨cnt, effect, hcnt⟩ := exists_buildpal_effect configured wf hall
  have hlen : used.length ≤ (rank cnt).length := length_le_length_rank hnodup (by simpa only [hcnt] using hused)
  exact ⟨_, effect.exec_eq (.inl ready), ready,
    (plen_buildPalette cnt s).trans (min_eq_right (hmore.le.trans hlen))⟩

/-! ## The order of the pixels (R125) -/

/-- What stands in the palette proper depends on REF, MODE and the counts only. -/
theorem buildPalette_congr (cnt : Counts) {s s' : State} (href : s'.ref = s.ref) (hmode : s'.mode = s.mode) :
    (buildPalette cnt s').plen = (buildPalette cnt s).plen ∧
      ∀ i, i < (buildPalette cnt s).plen.toNat → palAt (buildPalette cnt s') i = palAt (buildPalette cnt s) i := by
  have hplen : (buildPalette cnt s').plen = (buildPalette cnt s).plen :=
    BitVec.eq_of_toNat_eq (by rw [plen_buildPalette, plen_buildPalette, hmode])
  refine ⟨hplen, fun i hi => ?_⟩
  obtain ⟨_, hpal⟩ := exists_rank_of_lt_plen hi
  obtain ⟨_, hpal'⟩ := exists_rank_of_lt_plen (hplen.symm ▸ hi)
  rw [hpal, hpal', href]

/-- Settles O42: the two scans succeed together with the same counts, or fail together; a failure leaves no palette. -/
theorem paletteDoesNotDependOnPixelOrder : Obligations.PaletteDoesNotDependOnPixelOrder := by
  intro s s' t t' ready ready' configured configured' href hmode hperm ht ht'
  cases hscan : scanCounts s.ref (pixels s) zeroCounts with
  | ok cnt =>
    have hscan' : scanCounts s'.ref (pixels s') zeroCounts = .ok cnt := href ▸ scanCounts_ok_of_perm hperm hscan
    obtain rfl := Host.Outcome.next.inj (((Effect.buildpal configured hscan).exec_eq (.inl ready)).symm.trans ht)
    obtain rfl := Host.Outcome.next.inj (((Effect.buildpal configured' hscan').exec_eq (.inl ready')).symm.trans ht')
    exact ⟨ready'.trans ready.symm, buildPalette_congr cnt href hmode⟩
  | error c =>
    cases hscan' : scanCounts s'.ref (pixels s') zeroCounts with
    | ok cnt => exact absurd (scanCounts_ok_of_perm hperm.symm (href ▸ hscan')) (by simp [hscan])
    | error c' =>
      obtain rfl := Host.Outcome.next.inj ((exec_buildpal_of_error ready configured hscan).symm.trans ht)
      obtain rfl := Host.Outcome.next.inj ((exec_buildpal_of_error ready' configured' hscan').symm.trans ht')
      exact ⟨rfl, rfl, fun i hi => absurd hi (Nat.not_lt_zero i)⟩

end Sys2Proof.Machine

/-! # Proofs, family 42_quantizer: distance, nearest colour, QUANT and QUANT1 (42_quantizer.md)

The scan of `nearest` keeps the lowest nearest position of the colours seen so far (`IsLowestNearest`), and a list has only one such
position. In a usable palette it lies below PLEN, hence below 16, so an entry of IDX holds it whole. -/

namespace Sys2Proof.Machine

/-! ## The distance (R135) -/

/-- One of the two truncated differences is 0, the other is the absolute difference. -/
theorem channelDiff_eq_abs (a b : Byte) : (channelDiff a b : Int) = |(a.toNat : Int) - b.toNat| := by
  rw [channelDiff]
  rcases Nat.le_total a.toNat b.toNat with h | h
  · rw [abs_of_nonpos (by omega)]; omega
  · rw [abs_of_nonneg (by omega)]; omega

theorem channelDiff_le (a b : Byte) : channelDiff a b ≤ 255 := by
  rw [channelDiff]; omega

theorem channelDiff_comm (a b : Byte) : channelDiff a b = channelDiff b a := Nat.add_comm _ _

theorem channelDiff_eq_zero_iff {a b : Byte} : channelDiff a b = 0 ↔ a = b := by
  rw [← BitVec.toNat_inj, channelDiff]; omega

theorem colourDist_comm (a b : ColourWord) : colourDist a b = colourDist b a := by
  simp only [colourDist, channelDiff_comm (red a), channelDiff_comm (green a), channelDiff_comm (blue a)]

/-- A colour word is its three channels (20_memory.md R53). -/
theorem red_append_green_append_blue (c : ColourWord) : red c ++ (green c ++ blue c) = c := by
  rw [red, green, blue, BitVec.extractLsb'_append_extractLsb'_eq_extractLsb' (by rfl),
    BitVec.extractLsb'_append_extractLsb'_eq_extractLsb' (by rfl)]
  exact BitVec.extractLsb'_eq_self

theorem colourWord_eq_of_channels_eq {a b : ColourWord} (hred : red a = red b) (hgreen : green a = green b)
    (hblue : blue a = blue b) : a = b := by
  rw [← red_append_green_append_blue a, hred, hgreen, hblue, red_append_green_append_blue]

theorem colourDist_eq_zero_iff {a b : ColourWord} : colourDist a b = 0 ↔ a = b := by
  simp only [colourDist, Nat.add_eq_zero_iff, channelDiff_eq_zero_iff]
  constructor
  · rintro ⟨⟨hred, hgreen⟩, hblue⟩
    exact colourWord_eq_of_channels_eq hred hgreen hblue
  · rintro rfl
    exact ⟨⟨rfl, rfl⟩, rfl⟩

/-- Settles O44, channel by channel. -/
theorem distIsTheManhattanDistance : Obligations.DistIsTheManhattanDistance := by
  refine fun a b => ⟨?_, ?_, colourDist_eq_zero_iff, colourDist_comm a b⟩
  · simp only [colourDist, Nat.cast_add, channelDiff_eq_abs, red, green, blue]
  · calc colourDist a b ≤ 255 + 255 + 255 :=
          Nat.add_le_add (Nat.add_le_add (channelDiff_le _ _) (channelDiff_le _ _)) (channelDiff_le _ _)
      _ = 765 := rfl

/-! ## The nearest colour (R136) -/

/-- `i` is the lowest position of least distance from `p` in the list, and `c` the colour there (R136). -/
structure IsLowestNearest (p : ColourWord) (l : List ColourWord) (i : Nat) (c : ColourWord) : Prop where
  at_position : l[i]? = some c
  least : ∀ d ∈ l, colourDist p c ≤ colourDist p d
  less_before : ∀ (j : Nat) (d : ColourWord), j < i → l[j]? = some d → colourDist p c < colourDist p d

theorem isLowestNearest_singleton (p c : ColourWord) : IsLowestNearest p [c] 0 c where
  at_position := rfl
  least := by simp
  less_before _ _ hj := absurd hj (Nat.not_lt_zero _)

theorem IsLowestNearest.lt_length {p : ColourWord} {l : List ColourWord} {i : Nat} {c : ColourWord}
    (h : IsLowestNearest p l i c) : i < l.length :=
  (List.getElem?_eq_some_iff.mp h.at_position).1

/-- A strictly nearer colour at the end takes over. -/
theorem IsLowestNearest.concat_of_lt {p : ColourWord} {l : List ColourWord} {i : Nat} {c e : ColourWord}
    (h : IsLowestNearest p l i c) (hlt : colourDist p e < colourDist p c) : IsLowestNearest p (l ++ [e]) l.length e where
  at_position := List.getElem?_concat_length
  least := List.forall_mem_append.mpr ⟨fun d hd => hlt.le.trans (h.least d hd), by simp⟩
  less_before j d hj hd := by
    rw [List.getElem?_append_left hj] at hd
    exact hlt.trans_le (h.least d (List.mem_of_getElem? hd))

/-- A colour at the end that is not nearer leaves the position: "strictly less, never <=" (R136). -/
theorem IsLowestNearest.concat_of_le {p : ColourWord} {l : List ColourWord} {i : Nat} {c e : ColourWord}
    (h : IsLowestNearest p l i c) (hle : colourDist p c ≤ colourDist p e) : IsLowestNearest p (l ++ [e]) i c where
  at_position := (List.getElem?_append_left h.lt_length).trans h.at_position
  least := List.forall_mem_append.mpr ⟨h.least, by simpa using hle⟩
  less_before j d hj hd := by
    rw [List.getElem?_append_left (hj.trans h.lt_length)] at hd
    exact h.less_before j d hj hd

/-- The scan carries the lowest nearest position of the colours seen on to the whole list. -/
theorem exists_isLowestNearest_nearestScan {p c : ColourWord} {seen : List ColourWord} {best : Nat}
    (rest : List ColourWord) (h : IsLowestNearest p seen best c) :
    ∃ d, IsLowestNearest p (seen ++ rest) (nearestScan p rest seen.length best (colourDist p c)) d := by
  induction rest generalizing seen best c with
  | nil => exact ⟨c, by rwa [List.append_nil]⟩
  | cons e rest ih =>
    rw [nearestScan, List.append_cons]
    have hlen : (seen ++ [e]).length = seen.length + 1 := List.length_append
    rw [← hlen]
    split
    · next hlt => exact ih (h.concat_of_lt hlt)
    · next hlt => exact ih (h.concat_of_le (Nat.le_of_not_lt hlt))

theorem exists_isLowestNearest_nearest (p : ColourWord) {l : List ColourWord} (h : l ≠ []) :
    ∃ c, IsLowestNearest p l (nearest p l) c := by
  cases l with
  | nil => exact absurd rfl h
  | cons c cs => exact exists_isLowestNearest_nearestScan cs (isLowestNearest_singleton p c)

theorem nearest_lt_length (p : ColourWord) {l : List ColourWord} (h : l ≠ []) : nearest p l < l.length := by
  obtain ⟨_, hnearest⟩ := exists_isLowestNearest_nearest p h
  exact hnearest.lt_length

/-- Of two lowest nearest positions neither is below the other. -/
theorem IsLowestNearest.unique {p : ColourWord} {l : List ColourWord} {i j : Nat} {c d : ColourWord}
    (hi : IsLowestNearest p l i c) (hj : IsLowestNearest p l j d) : i = j := by
  rcases Nat.lt_trichotomy i j with hlt | heq | hgt
  · exact absurd (hj.less_before i c hlt hi.at_position) (hi.least d (List.mem_of_getElem? hj.at_position)).not_gt
  · exact heq
  · exact absurd (hi.less_before j d hgt hj.at_position) (hj.least c (List.mem_of_getElem? hi.at_position)).not_gt

theorem IsLowestNearest.eq_nearest {p : ColourWord} {l : List ColourWord} {i : Nat} {c : ColourWord}
    (h : IsLowestNearest p l i c) : nearest p l = i := by
  obtain ⟨_, hnearest⟩ := exists_isLowestNearest_nearest p (List.length_pos_iff.mp (Nat.zero_lt_of_lt h.lt_length))
  exact hnearest.unique h

/-- The colour itself has distance 0, and every other colour more (R141). -/
theorem isLowestNearest_of_first {p : ColourWord} {l : List ColourWord} {i : Nat} (hi : l[i]? = some p)
    (hfirst : ∀ j, j < i → l[j]? ≠ some p) : IsLowestNearest p l i p := by
  have hzero : colourDist p p = 0 := colourDist_eq_zero_iff.mpr rfl
  refine ⟨hi, fun d _ => hzero.trans_le (Nat.zero_le _), fun j d hj hd => ?_⟩
  have hne : p ≠ d := by rintro rfl; exact hfirst j hj hd
  rw [hzero]
  exact Nat.pos_of_ne_zero (mt colourDist_eq_zero_iff.mp hne)

/-- Settles O45: the scan ends with the lowest nearest position of the whole list. -/
theorem nearestIsTheLowestNearestPosition : Obligations.NearestIsTheLowestNearestPosition := by
  intro p l h
  obtain ⟨c, hnearest⟩ := exists_isLowestNearest_nearest p h
  exact ⟨c, hnearest.at_position, fun j d hd => hnearest.least d (List.mem_of_getElem? hd), hnearest.less_before⟩

/-! ## The index of a colour in a usable palette (R137, R138) -/

theorem palRgb_ne_nil {s : State} (usable : PaletteUsable s) : palRgb s ≠ [] := by
  intro hnil
  have hlen : s.plen.toNat = 0 := by rw [← palRgb_length, hnil, List.length_nil]
  exact usable.1 (BitVec.eq_of_toNat_eq hlen)

theorem nearest_palRgb_lt_plen (p : ColourWord) {s : State} (usable : PaletteUsable s) :
    nearest p (palRgb s) < s.plen.toNat :=
  palRgb_length s ▸ nearest_lt_length p (palRgb_ne_nil usable)

theorem nearest_palRgb_lt (p : ColourWord) {s : State} (usable : PaletteUsable s) : nearest p (palRgb s) < 16 :=
  calc nearest p (palRgb s) < s.plen.toNat := nearest_palRgb_lt_plen p usable
    _ ≤ s.mode.cpm := usable.2
    _ ≤ 16 := cpm_le s.mode

/-- The 4 bits of an entry of IDX hold every index of a usable palette (10_state.md R28). -/
theorem toNat_idxAt_quantizePixels {s : State} (usable : PaletteUsable s) {k : Nat} (hk : k < pixelCount s) :
    (idxAt (quantizePixels s) k).toNat = nearest (pixAt s k) (palRgb s) := by
  rw [idxAt_quantizePixels, if_pos hk, BitVec.toNat_ofNat, quantizeColour]
  exact Nat.mod_eq_of_lt (nearest_palRgb_lt _ usable)

theorem idxAt_quantizePixels_beyond {s : State} {k : Nat} (hk : pixelCount s ≤ k) :
    idxAt (quantizePixels s) k = idxAt s k := by
  rw [idxAt_quantizePixels, if_neg (Nat.not_lt_of_le hk)]

/-! ## The checks of QUANT and QUANT1 (R138, R139) -/

theorem unconfigured_eq_true {s : State} (h : ¬ Configured s) : unconfigured s = true :=
  Bool.eq_true_of_not_eq_false (mt unconfigured_iff.mp h)

theorem paletteUnusable_eq_true {s : State} (h : ¬ PaletteUsable s) : paletteUnusable s = true :=
  Bool.eq_true_of_not_eq_false (mt paletteUnusable_iff.mp h)

theorem traps_quant_unconfigured {s : State} (ready : s.err = 0) (h : ¬ Configured s) :
    Traps .quant s .dimensionError (dimWord s) :=
  ⟨_, next_whenReady ready (if_pos (unconfigured_eq_true h)), raise_trapped _ _ s⟩

theorem traps_quant_unusable {s : State} (ready : s.err = 0) (configured : Configured s) (h : ¬ PaletteUsable s) :
    Traps .quant s .paletteRange (s.plen.setWidth 24) := by
  have hdim : ¬ unconfigured s = true := by simp [unconfigured_iff.mpr configured]
  exact ⟨_, next_whenReady ready ((if_neg hdim).trans (if_pos (paletteUnusable_eq_true h))), raise_trapped _ _ s⟩

theorem traps_quant1_unusable {s : State} (ready : s.err = 0) (c : ColourWord) (h : ¬ PaletteUsable s) :
    Traps (.quant1 c) s .paletteRange (s.plen.setWidth 24) :=
  ⟨_, next_whenReady ready (if_pos (paletteUnusable_eq_true h)), raise_trapped _ _ s⟩

/-- Settles O46: the two checks in their order, then the writes of `quantizePixels`. -/
theorem quantWritesNearestIndices : Obligations.QuantWritesNearestIndices := by
  refine ⟨by decide, fun s ready => ⟨traps_quant_unconfigured ready, traps_quant_unusable ready, fun configured usable => ?_⟩⟩
  have effect := Effect.quant configured usable
  exact effect.completes (.inl ready)
    ⟨fun _ => toNat_idxAt_quantizePixels usable, fun _ => idxAt_quantizePixels_beyond, effect.frame 0⟩

/-- Settles O47: the check, then the response with the state as it was. -/
theorem quant1ReturnsTheNearestIndex : Obligations.Quant1ReturnsTheNearestIndex := by
  refine fun c s ready =>
    ⟨encode_eq_or 0x22 rfl (BitVec.setWidth_eq c).symm, traps_quant1_unusable ready c, fun usable => ?_⟩
  have effect := Effect.quant1 c usable
  exact ⟨effect.completes (.inl ready) (effect.frame _), nearest_palRgb_lt c usable⟩

/-! ## After a successful QUANT (R140, R141) -/

/-- A command that begins and ends in READY has completed: a trap leaves its code in ERR. -/
theorem exists_effect_of_succeeds {i : Instr} {s t : State} (ready : s.err = 0) (h : exec i s = .next t) (ht : t.err = 0) :
    ∃ u data, Effect s i u ∧ t = respond data u := by
  cases exec_ends h with
  | completes data _ effect => exact ⟨_, data, effect, rfl⟩
  | traps => exact absurd ht (code_ne_zero _)
  | rejected faulted => exact absurd ready faulted

theorem quant_succeeds {s t : State} (ready : s.err = 0) (h : exec .quant s = .next t) (ht : t.err = 0) :
    PaletteUsable s ∧ ∃ data, t = respond data (quantizePixels s) := by
  obtain ⟨_, data, effect, rfl⟩ := exists_effect_of_succeeds ready h ht
  cases effect with
  | quant _ usable => exact ⟨usable, data, rfl⟩

/-- Settles O48: the nearest position is a position of the palette. -/
theorem quantIndicesAreWithinThePalette : Obligations.QuantIndicesAreWithinThePalette := by
  intro s t ready h ht
  obtain ⟨usable, data, rfl⟩ := quant_succeeds ready h ht
  refine ⟨usable.2, fun k hk => ?_⟩
  rw [idxAt_respond, toNat_idxAt_quantizePixels usable hk]
  exact nearest_palRgb_lt_plen _ usable

/-- Settles O49: the lowest position of the colour is the lowest nearest one, since only the colour itself has distance 0. -/
theorem quantGivesExactColoursTheirIndex : Obligations.QuantGivesExactColoursTheirIndex := by
  intro s t k i ready h ht hk hi hfirst
  obtain ⟨usable, data, rfl⟩ := quant_succeeds ready h ht
  rw [idxAt_respond, toNat_idxAt_quantizePixels usable hk]
  exact (isLowestNearest_of_first hi hfirst).eq_nearest

end Sys2Proof.Machine

/-! # Proofs, family 43_bit_packer: the layouts, the inverse, and PACK (43_bit_packer.md)

The three layouts are one table, `destBit`: the byte bit that holds bit `i` of the index in a slot. It takes each byte bit once, so
every byte bit is one index bit: packing writes the table's bits, unpacking reads them back. -/

namespace Sys2Proof.Machine

/-! ## The destination bits (R151 to R153) -/

/-- The byte bit that holds bit `i` of the index in a slot. -/
def destBit : ScreenMode → (slot i : Nat) → Nat
  | .mode2, slot, _ => 7 - slot
  | .mode1, slot, 0 => 3 - slot
  | .mode1, slot, _ => 3 - slot + 4
  | .mode0, slot, 0 => 6 + (1 - slot)
  | .mode0, slot, 1 => 2 + (1 - slot)
  | .mode0, slot, 2 => 4 + (1 - slot)
  | .mode0, slot, _ => 1 - slot

theorem destBit_lt (m : ScreenMode) : ∀ slot < m.ppb, ∀ i < m.bpp, destBit m slot i < 8 := by
  cases m <;> decide

/-- No two index bits share a byte bit. -/
theorem destBit_injective (m : ScreenMode) : Function.Injective fun p : Fin m.ppb × Fin m.bpp => destBit m p.1 p.2 := by
  cases m <;> decide

theorem destBit_inj {m : ScreenMode} {slot slot' i i' : Nat} (hslot : slot < m.ppb) (hslot' : slot' < m.ppb)
    (hi : i < m.bpp) (hi' : i' < m.bpp) (h : destBit m slot i = destBit m slot' i') : slot = slot' ∧ i = i' := by
  simpa using @destBit_injective m (⟨slot, hslot⟩, ⟨i, hi⟩) (⟨slot', hslot'⟩, ⟨i', hi'⟩) h

/-- No byte bit is left over. -/
theorem exists_destBit_eq (m : ScreenMode) : ∀ n < 8, ∃ slot < m.ppb, ∃ i < m.bpp, destBit m slot i = n := by
  cases m <;> decide

/-! ## Packing writes the destination bits (R154) -/

theorem getLsbD_indexBit_shiftLeft (v : Nibble) (i p : Nat) {n : Nat} (hn : n < 8) :
    (indexBit v i <<< p).getLsbD n = true ↔ p = n ∧ v.getLsbD i = true := by
  rcases Nat.lt_trichotomy p n with h | rfl | h
  · simp [indexBit, Nat.ne_of_lt h, Nat.sub_ne_zero_of_lt h]
  · simp [indexBit, hn]
  · simp [h, Nat.ne_of_gt h]

theorem getLsbD_contrib (m : ScreenMode) (slot : Nat) (v : Nibble) {n : Nat} (hn : n < 8) :
    (contrib m slot v).getLsbD n = true ↔ ∃ i < m.bpp, destBit m slot i = n ∧ v.getLsbD i = true := by
  cases m <;>
    simp only [contrib, contrib0, contrib1, contrib2, BitVec.getLsbD_or, Bool.or_eq_true,
      getLsbD_indexBit_shiftLeft _ _ _ hn, ScreenMode.bpp, Nat.exists_lt_succ_right, Nat.not_lt_zero, false_and,
      exists_false, false_or, destBit]

/-- The accumulation by OR: a byte bit is set when the accumulator or a slot's contribution sets it. -/
theorem getLsbD_packFrom (m : ScreenMode) (vs : List Nibble) (slot : Nat) (acc : Byte) (n : Nat) :
    (packFrom m slot acc vs).getLsbD n = true ↔
      acc.getLsbD n = true ∨ ∃ j v, vs[j]? = some v ∧ (contrib m (slot + j) v).getLsbD n = true := by
  induction vs generalizing slot acc with
  | nil => simp [packFrom]
  | cons u us ih =>
    rw [packFrom, ih, BitVec.getLsbD_or, Bool.or_eq_true, or_assoc]
    refine or_congr_right ⟨?_, ?_⟩
    · rintro (h | ⟨j, v, hv, h⟩)
      · exact ⟨0, u, rfl, h⟩
      · exact ⟨j + 1, v, hv, by rwa [Nat.add_right_comm, Nat.add_assoc] at h⟩
    · rintro ⟨_ | j, v, hv, h⟩
      · obtain rfl : u = v := Option.some.inj hv
        exact .inl h
      · exact .inr ⟨j, v, hv, by rwa [Nat.add_right_comm, Nat.add_assoc]⟩

/-- A bit of a packed byte is the index bit that has its destination there. -/
theorem getLsbD_packByte {m : ScreenMode} {vs : List Nibble} {slot i n : Nat} {v : Nibble} (hlen : vs.length = m.ppb)
    (hv : vs[slot]? = some v) (hi : i < m.bpp) (hdest : destBit m slot i = n) :
    (packByte m vs).getLsbD n = v.getLsbD i := by
  subst hdest
  have lt_ppb {j : Nat} {u : Nibble} (hu : vs[j]? = some u) : j < m.ppb := hlen ▸ (List.getElem?_eq_some_iff.mp hu).1
  rw [Bool.eq_iff_iff, packByte, getLsbD_packFrom]
  simp only [BitVec.ofNat_eq_ofNat, BitVec.getLsbD_zero, Bool.false_eq_true, false_or, Nat.zero_add,
    getLsbD_contrib _ _ _ (destBit_lt m slot (lt_ppb hv) i hi)]
  constructor
  · rintro ⟨j, u, hu, i', hi', hsame, hbit⟩
    obtain ⟨rfl, rfl⟩ := destBit_inj (lt_ppb hu) (lt_ppb hv) hi' hi hsame
    obtain rfl : u = v := Option.some.inj (hu.symm.trans hv)
    exact hbit
  · exact fun hbit => ⟨slot, v, hv, i, hi, rfl, hbit⟩

/-- Settles O50: the table `destBit` written out, mode by mode. -/
theorem packedByteLayouts : Obligations.PackedByteLayouts := by
  intro vs slot v hv
  have hslot : slot < vs.length := (List.getElem?_eq_some_iff.mp hv).1
  refine ⟨fun hlen => ?mode2, fun hlen => ?mode1, fun hlen => ?mode0⟩
  case mode2 => exact getLsbD_packByte (i := 0) hlen hv (by decide) rfl
  case mode1 =>
    exact ⟨getLsbD_packByte (i := 0) hlen hv (by decide) rfl,
      getLsbD_packByte (i := 1) hlen hv (by decide) (by simp only [destBit]; omega)⟩
  case mode0 =>
    exact ⟨getLsbD_packByte (i := 0) hlen hv (by decide) (by simp only [destBit]; omega),
      getLsbD_packByte (i := 1) hlen hv (by decide) (by simp only [destBit]; omega),
      getLsbD_packByte (i := 2) hlen hv (by decide) (by simp only [destBit]; omega),
      getLsbD_packByte (i := 3) hlen hv (by decide) rfl⟩

/-! ## Unpacking reads the destination bits (R157) -/

theorem getElem_packedBit (b : Byte) (n : Nat) {i : Nat} (hi : i < 4) :
    (packedBit b n)[i] = (decide (i = 0) && b.getLsbD n) := by
  rcases Nat.eq_zero_or_pos i with rfl | hpos
  · simp [packedBit]
  · simp [packedBit, Nat.ne_of_gt hpos]

/-- Bit `i` of an unpacked index is its destination bit, for each of the mode's `bpp` bits; the bits above are 0. -/
theorem getElem_unpackSlot {m : ScreenMode} (b : Byte) {slot i : Nat} (hslot : slot < m.ppb) (hi : i < 4) :
    (unpackSlot m b slot)[i] = (decide (i < m.bpp) && b.getLsbD (destBit m slot i)) := by
  obtain rfl | rfl | rfl | rfl : i = 0 ∨ i = 1 ∨ i = 2 ∨ i = 3 := by omega
  all_goals cases m with
  | mode0 => simp [unpackSlot, destBit, getElem_packedBit, ScreenMode.bpp]
  | mode1 =>
    have hhigh : 7 - slot = 3 - slot + 4 := Nat.sub_add_comm (m := 4) (Nat.le_of_lt_succ hslot)
    simp [unpackSlot, destBit, getElem_packedBit, ScreenMode.bpp, hhigh]
  | mode2 => simp [unpackSlot, destBit, getElem_packedBit, ScreenMode.bpp]

/-- An index in range has no bit above the mode's `bpp`, since `cpm` is `2 ^ bpp` (00_scope.md R5). -/
theorem getLsbD_of_lt_cpm {m : ScreenMode} {v : Nibble} (hv : v.toNat < m.cpm) {i : Nat} (hi : m.bpp ≤ i) :
    v.getLsbD i = false := by
  have hcpm : m.cpm = 2 ^ m.bpp := by cases m <;> rfl
  rw [← BitVec.testBit_toNat]
  exact Nat.testBit_lt_two_pow (hv.trans_le (hcpm ▸ Nat.pow_le_pow_right (by decide) hi))

/-- Settles O51, bit by bit: unpacking reads a bit where packing wrote it, and every byte bit is one of those written. -/
theorem packingIsInvertible : Obligations.PackingIsInvertible := by
  refine fun m => ⟨fun vs slot v hlen hrange hv => ?unpackPacked, fun b => ?packUnpacked⟩
  case unpackPacked =>
    have hslot : slot < m.ppb := hlen ▸ (List.getElem?_eq_some_iff.mp hv).1
    ext i hi4
    rw [getElem_unpackSlot _ hslot, ← BitVec.getLsbD_eq_getElem]
    by_cases hi : i < m.bpp
    · simp [hi, getLsbD_packByte hlen hv hi rfl]
    · rw [getLsbD_of_lt_cpm (hrange v (List.mem_of_getElem? hv)) (Nat.le_of_not_lt hi)]
      simp [hi]
  case packUnpacked =>
    refine BitVec.eq_of_getLsbD_eq fun n hn => ?_
    obtain ⟨slot, hslot, i, hi, rfl⟩ := exists_destBit_eq m n hn
    have hi4 : i < 4 := hi.trans_le (by cases m <;> decide)
    rw [getLsbD_packByte (v := unpackSlot m b slot) (by simp) (by simp [hslot]) hi rfl, BitVec.getLsbD_eq_getElem hi4,
      getElem_unpackSlot b hslot]
    simp [hi]

/-! ## PACK (R155, R156) -/

theorem packableSize_eq_true {s : State} (h : ¬ PackableSize s) : (unconfigured s || rowsSplitBytes s) = true :=
  Bool.eq_true_of_not_eq_false (mt packableSize_iff.mp h)

theorem traps_pack_unpackable {s : State} (ready : s.err = 0) (h : ¬ PackableSize s) :
    Traps .pack s .dimensionError (dimWord s) :=
  ⟨_, next_whenReady ready (if_pos (packableSize_eq_true h)), raise_trapped _ _ s⟩

theorem traps_pack_index {s : State} (ready : s.err = 0) (packable : PackableSize s) {k : Nat}
    (hbad : firstBadIndex s = some k) : Traps .pack s .indexRange (badIndexInfo s k) :=
  ⟨_, next_whenReady ready (by simp only [packableSize_iff.mpr packable, hbad]; rfl), raise_trapped _ _ s⟩

/-- The response to PACK: OLEN has room for the length (10_state.md R29). -/
theorem reply_pack (s : State) :
    reply .pack s (packIndices s) = BitVec.ofNat 24 (pixelCount s / s.mode.ppb) := by
  rw [← olen_packIndices, BitVec.ofNat_toNat]; rfl

/-- Settles O52: the two checks in their order, then the writes of `packIndices`. -/
theorem packWritesThePackedBytes : Obligations.PackWritesThePackedBytes := by
  refine ⟨by decide, fun s ready => ⟨traps_pack_unpackable ready, fun k packable hk hbad hfirst =>
    traps_pack_index ready packable (firstBadIndex_some hk hbad hfirst), fun packable inRange => ?_⟩⟩
  have effect := Effect.pack packable (firstBadIndex_none.mpr inRange)
  rw [← reply_pack s]
  exact effect.completes (.inl ready) ⟨olen_packIndices s, outAt_packIndices s, effect.frame _⟩

theorem pack_succeeds {s t : State} (ready : s.err = 0) (h : exec .pack s = .next t) (ht : t.err = 0) :
    PackableSize s ∧ ∃ data, t = respond data (packIndices s) := by
  obtain ⟨_, data, effect, rfl⟩ := exists_effect_of_succeeds ready h ht
  cases effect with
  | pack packable _ => exact ⟨packable, data, rfl⟩

/-- Settles O53: the width is a whole number of bytes, so the image is. -/
theorem packedLengthIsExact : Obligations.PackedLengthIsExact := by
  intro s t inv ready h ht
  obtain ⟨⟨configured, hwidth⟩, data, rfl⟩ := pack_succeeds ready h ht
  have hdvd : s.mode.ppb ∣ s.width.toNat := Nat.dvd_of_mod_eq_zero hwidth
  have hexact : (packIndices s).olen.toNat * s.mode.ppb = pixelCount s := by
    rw [olen_packIndices]
    exact Nat.div_mul_cancel (hdvd.mul_right _)
  refine ⟨hexact, ?rows, ?positive, (packIndices_inv inv ready).olenInRange⟩
  case rows =>
    calc (packIndices s).olen.toNat = s.height.toNat * s.width.toNat / s.mode.ppb := by
          rw [olen_packIndices, pixelCount, Nat.mul_comm]
      _ = s.height.toNat * (s.width.toNat / s.mode.ppb) := Nat.mul_div_assoc _ hdvd
  case positive =>
    exact Nat.pos_of_mul_pos_right (hexact ▸ pixelCount_pos configured)

end Sys2Proof.Machine

/-! # Proofs, family 44_convert: the whole conversion (44_convert.md)

CONVERT's three phases pass the checks of the three commands (`paletteUsable_buildPalette`, `firstBadIndex_quantizePixels`), so
what BUILDPAL, QUANT and PACK establish holds after CONVERT; and each phase reads no more than the image and the phase before. -/

namespace Sys2Proof.Machine

/-! ## The phases pass each other's checks (R170) -/

/-- The first pixel of a configured image is counted. -/
theorem exists_count_pos {s : State} {cnt : Counts} (configured : Configured s)
    (hscan : scanCounts s.ref (pixels s) zeroCounts = .ok cnt) : ∃ f : FwIndex, 0 < cnt[f] := by
  obtain ⟨hall, hcount⟩ := scanCounts_zeroCounts_ok_iff.mp hscan
  have hmem : pixAt s 0 ∈ pixels s :=
    List.mem_of_getElem? (i := 0) (by rw [pixels_getElem?, if_pos (pixelCount_pos configured)])
  obtain ⟨f, hf⟩ := Option.isSome_iff_exists.mp (fwOfRgb_isSome.mpr (hall _ hmem))
  exact ⟨f, hcount f ▸ List.count_pos_iff.mpr (List.mem_filterMap.mpr ⟨_, hmem, hf⟩)⟩

theorem cpm_pos (m : ScreenMode) : 0 < m.cpm := by
  cases m <;> decide

/-- BUILDPAL's palette passes QUANT's check. -/
theorem paletteUsable_buildPalette {s : State} {cnt : Counts} (configured : Configured s)
    (hscan : scanCounts s.ref (pixels s) zeroCounts = .ok cnt) : PaletteUsable (buildPalette cnt s) := by
  obtain ⟨f, hf⟩ := exists_count_pos configured hscan
  have hlen : 0 < (rank cnt).length := List.length_pos_of_mem ((mem_rank cnt f).mpr hf)
  have hplen := plen_buildPalette cnt s
  refine ⟨fun hzero => ?_, hplen ▸ min_le_right _ _⟩
  rw [hzero] at hplen
  exact (lt_min hlen (cpm_pos s.mode)).ne hplen

/-- QUANT's indices are in the mode's range. -/
theorem idxAt_quantizePixels_lt_cpm {s : State} (usable : PaletteUsable s) {k : Nat} (hk : k < pixelCount s) :
    (idxAt (quantizePixels s) k).toNat < s.mode.cpm := by
  rw [toNat_idxAt_quantizePixels usable hk]
  exact (nearest_palRgb_lt_plen _ usable).trans_le usable.2

/-- QUANT's indices pass PACK's check. -/
theorem firstBadIndex_quantizePixels {s : State} (usable : PaletteUsable s) : firstBadIndex (quantizePixels s) = none :=
  firstBadIndex_none.mpr fun _ hk => idxAt_quantizePixels_lt_cpm usable hk

theorem responseWord_ok_olen (n : BitVec 9) : responseWord statusOk (n.setWidth 24) = n.setWidth 32 := by
  simp [responseWord, statusOk]

theorem respond_olen_eq (s : State) :
    respond (s.olen.setWidth 24) s = { s with rsps := s.rsps ++ [s.olen.setWidth 32] } := by
  rw [respond, returnResponse, responseWord_ok_olen]

/-- A response changes the list of responses only. -/
theorem respond_with_rsps (d : BitVec 24) (s : State) (l : List Word) :
    { respond d s with rsps := l } = { s with rsps := l } := rfl

/-- A command in READY whose checks pass leaves its change, with some response, in READY. -/
theorem Effect.succeeds {i : Instr} {s u : State} (effect : Effect s i u) (ready : s.err = 0) :
    ∃ data, exec i s = .next (respond data u) ∧ (respond data u).err = 0 :=
  ⟨_, effect.exec_eq (.inl ready), effect.err_eq_zero ready⟩

/-- Settles O54: each command's checks hold after the command before it, and no command reads the responses. -/
theorem convertIsBuildpalThenQuantThenPack : Obligations.ConvertIsBuildpalThenQuantThenPack := by
  intro s t ready h ht
  obtain ⟨packable, cnt, hscan, rfl⟩ := (exec_convert_succeeds_iff ready).mp ⟨h, ht⟩
  have usable := paletteUsable_buildPalette packable.1 hscan
  obtain ⟨d1, buildpal, ready1⟩ := (Effect.buildpal packable.1 hscan).succeeds ready
  obtain ⟨d2, quant, ready2⟩ :=
    (Effect.quant (s := respond d1 (buildPalette cnt s)) packable.1 usable).succeeds ready1
  obtain ⟨d3, pack, ready3⟩ :=
    (Effect.pack (s := respond d2 (quantizePixels (respond d1 (buildPalette cnt s)))) packable
      (firstBadIndex_quantizePixels usable)).succeeds ready2
  refine ⟨_, _, _, buildpal, ready1, quant, ready2, pack, ready3, ?_⟩
  rw [respond_olen_eq, quantizePixels_respond, packIndices_respond, packIndices_respond]
  simp only [respond_with_rsps]
  rfl

/-! ## A failed CONVERT (R171) -/

/-- A command that leaves READY has taken a trap for one of its causes. -/
theorem eq_raise_of_fails {i : Instr} {s t : State} (ready : s.err = 0) (h : exec i s = .next t) (ht : t.err ≠ 0) :
    ∃ cause ∈ mayRaise i, ∃ info, t = raise cause info s := by
  cases exec_ends h with
  | completes _ _ effect => exact absurd (effect.err_eq_zero ready) ht
  | traps info _ listed => exact ⟨_, listed, info, rfl⟩
  | rejected faulted => exact absurd ready faulted

/-- FAULTED rejects every command with the envelope of 30_encoding.md R79. -/
theorem rejects_of_whenReady {i : Instr} {s : State} {rule : State → State} (faulted : s.err ≠ 0)
    (h : exec i s = .next (whenReady s rule)) : ∃ u, exec i s = .next u ∧ Rejected s u :=
  ⟨_, h.trans (congrArg _ (whenReady_faulted faulted rule)), reject_rejected s⟩

/-- Settles O58: the trap entry and CLRERR both leave PLEN and OLEN 0. -/
theorem failedConvertLeavesNothingReadable : Obligations.FailedConvertLeavesNothingReadable := by
  intro s t ready h ht
  obtain ⟨cause, listed, info, rfl⟩ := eq_raise_of_fails ready h ht
  refine ⟨⟨info, ?causes⟩, ?reads, fun _ => rejects_of_whenReady ht rfl, _, rfl,
    traps_rdout rfl (Nat.zero_le _), fun _ => traps_rdpal rfl (Nat.zero_le _)⟩
  case causes =>
    have trapped := raise_trapped cause info s
    obtain rfl | rfl : cause = .unsupportedColor ∨ cause = .dimensionError := by simpa [mayRaise] using listed
    · exact .inr trapped
    · exact .inl trapped
  case reads =>
    simp only [List.forall_mem_cons, List.not_mem_nil, false_implies, implies_true, and_true]
    exact ⟨rejects_of_whenReady ht rfl, rejects_of_whenReady ht rfl, rejects_of_whenReady ht rfl⟩

/-! ## CONVERT reads the image only (R172) -/

theorem exec_convert_of_unpackable {s : State} (ready : s.err = 0) (h : ¬ PackableSize s) :
    exec .convert s = .next (raise .dimensionError (dimWord s) s) :=
  next_whenReady ready (if_pos (packableSize_eq_true h))

theorem palRgb_congr_of_lt {s t : State} (href : t.ref = s.ref) (hplen : t.plen = s.plen)
    (hpal : ∀ i, i < s.plen.toNat → palAt t i = palAt s i) : palRgb t = palRgb s := by
  rw [palRgb, palRgb, href, hplen]
  exact List.map_congr_left fun i hi => by rw [hpal i (List.mem_range.mp hi)]

/-- Every slot of a packed byte is a pixel of the image (43_bit_packer.md R150). -/
theorem slot_lt_pixelCount {s : State} {j slot : Nat} (hj : j < pixelCount s / s.mode.ppb) (hslot : slot < s.mode.ppb) :
    j * s.mode.ppb + slot < pixelCount s :=
  calc j * s.mode.ppb + slot < j * s.mode.ppb + s.mode.ppb := Nat.add_lt_add_left hslot _
    _ = (j + 1) * s.mode.ppb := (Nat.succ_mul _ _).symm
    _ ≤ pixelCount s := (Nat.le_div_iff_mul_le (Nat.zero_lt_of_lt hslot)).mp hj

theorem mem_slotIndices {s : State} {j : Nat} {v : Nibble} (hj : j < pixelCount s / s.mode.ppb) (hv : v ∈ slotIndices s j) :
    ∃ k < pixelCount s, idxAt s k = v := by
  obtain ⟨slot, hslot, rfl⟩ := List.mem_map.mp hv
  exact ⟨_, slot_lt_pixelCount hj (List.mem_range.mp hslot), rfl⟩

/-- The packed image depends on MODE, on the number of pixels and on the indices below it only. -/
theorem packIndices_congr {s s' : State} (hmode : s'.mode = s.mode) (hn : pixelCount s' = pixelCount s)
    (hidx : ∀ k, k < pixelCount s → idxAt s' k = idxAt s k) :
    (packIndices s').olen = (packIndices s).olen ∧
      ∀ j, j < (packIndices s).olen.toNat → outAt (packIndices s') j = outAt (packIndices s) j := by
  refine ⟨BitVec.eq_of_toNat_eq (by rw [olen_packIndices, olen_packIndices, hmode, hn]), fun j hj => ?_⟩
  rw [olen_packIndices] at hj
  have hslots : slotIndices s' j = slotIndices s j := by
    rw [slotIndices, slotIndices, hmode]
    exact List.map_congr_left fun slot hslot => hidx _ (slot_lt_pixelCount hj (List.mem_range.mp hslot))
  rw [outAt_packIndices s j hj, outAt_packIndices s' j (by rwa [hn, hmode]), hslots, hmode]

theorem SameImage.pixelCount_eq {s s' : State} (h : SameImage s s') : pixelCount s' = pixelCount s := by
  obtain ⟨_, _, hwidth, hheight, _⟩ := h
  rw [pixelCount, pixelCount, hwidth, hheight]

theorem SameImage.pixels_eq {s s' : State} (h : SameImage s s') : pixels s' = pixels s := by
  rw [pixels, pixels, h.pixelCount_eq]
  obtain ⟨_, _, _, _, hpix⟩ := h
  exact List.map_congr_left fun k hk => hpix k (List.mem_range.mp hk)

theorem SameImage.packableSize_iff {s s' : State} (h : SameImage s s') : PackableSize s' ↔ PackableSize s := by
  obtain ⟨_, hmode, hwidth, hheight, _⟩ := h
  rw [PackableSize, PackableSize, Configured, Configured, hmode, hwidth, hheight]

theorem SameImage.dimWord_eq {s s' : State} (h : SameImage s s') : dimWord s' = dimWord s := by
  obtain ⟨_, _, hwidth, hheight, _⟩ := h
  rw [dimWord, dimWord, hwidth, hheight]

/-- The two images are quantized with the same palette. -/
theorem SameImage.idxAt_convertWith_eq {s s' : State} (h : SameImage s s') (cnt : Counts) {k : Nat} (hk : k < pixelCount s) :
    idxAt (convertWith cnt s') k = idxAt (convertWith cnt s) k := by
  have hn := h.pixelCount_eq
  obtain ⟨href, hmode, _, _, hpix⟩ := h
  obtain ⟨hplen, hpal⟩ := buildPalette_congr cnt href hmode
  have hrgb : palRgb (buildPalette cnt s') = palRgb (buildPalette cnt s) := palRgb_congr_of_lt href hplen hpal
  rw [idxAt_convertWith, idxAt_convertWith, hn, if_pos hk, if_pos hk, quantizeColour, quantizeColour, hrgb, hpix k hk]

theorem SameImage.sameResults_convertWith {s s' : State} (h : SameImage s s') (cnt : Counts) :
    SameResults (convertWith cnt s) (convertWith cnt s') := by
  have ⟨href, hmode, _⟩ := h
  have ⟨hplen, hpal⟩ := buildPalette_congr cnt href hmode
  have hout := packIndices_congr (s := quantizePixels (buildPalette cnt s)) (s' := quantizePixels (buildPalette cnt s'))
    hmode h.pixelCount_eq fun _ => h.idxAt_convertWith_eq cnt
  exact ⟨hplen, hpal, hout⟩

/-- The trap entry leaves no readable result, whatever the states (60_exceptions.md R212). -/
theorem sameResults_raise (cause cause' : Cause) (info info' : BitVec 24) (s s' : State) :
    SameResults (raise cause info s) (raise cause' info' s') :=
  ⟨rfl, fun i hi => absurd hi (Nat.not_lt_zero i), rfl, fun j hj => absurd hj (Nat.not_lt_zero j)⟩

/-- Settles O56: the two runs take the same branch, since the checks and the scan read the image only. -/
theorem convertDependsOnItsInputsOnly : Obligations.ConvertDependsOnItsInputsOnly := by
  intro s s' t t' ready ready' same h h'
  by_cases packable : PackableSize s
  · have packable' := same.packableSize_iff.mpr packable
    have ⟨href, _⟩ := same
    have hscans : scanCounts s'.ref (pixels s') zeroCounts = scanCounts s.ref (pixels s) zeroCounts := by
      rw [href, same.pixels_eq]
    cases hscan : scanCounts s.ref (pixels s) zeroCounts with
    | error c =>
      obtain rfl := Host.Outcome.next.inj ((exec_convert_of_error ready packable hscan).symm.trans h)
      obtain rfl := Host.Outcome.next.inj ((exec_convert_of_error ready' packable' (hscans.trans hscan)).symm.trans h')
      exact ⟨rfl, fun _ => rfl, sameResults_raise _ _ _ _ s s',
        fun herr => absurd herr (code_ne_zero .unsupportedColor), _, rfl, rfl⟩
    | ok cnt =>
      have results := same.sameResults_convertWith cnt
      obtain rfl := Host.Outcome.next.inj (((Effect.convert packable hscan).exec_eq (.inl ready)).symm.trans h)
      obtain rfl := Host.Outcome.next.inj
        (((Effect.convert packable' (hscans.trans hscan)).exec_eq (.inl ready')).symm.trans h')
      have ⟨_, _, holen, _⟩ := results
      refine ⟨ready'.trans ready.symm, fun herr => absurd ready herr, results,
        fun _ k => same.idxAt_convertWith_eq cnt, _, rfl, ?_⟩
      simp only [respond_rsps, convertWith_rsps, reply, holen]
  · have packable' := mt same.packableSize_iff.mp packable
    obtain rfl := Host.Outcome.next.inj ((exec_convert_of_unpackable ready packable).symm.trans h)
    obtain rfl := Host.Outcome.next.inj ((exec_convert_of_unpackable ready' packable').symm.trans h')
    rw [same.dimWord_eq]
    exact ⟨rfl, fun _ => rfl, sameResults_raise _ _ _ _ s s',
      fun herr => absurd herr (code_ne_zero .dimensionError), _, rfl, rfl⟩

/-! ## What CONVERT establishes (R173) -/

/-- The response to CONVERT: OLEN has room for the length (10_state.md R29). -/
theorem reply_convert (cnt : Counts) (s : State) :
    reply .convert s (convertWith cnt s) = BitVec.ofNat 24 (pixelCount s / s.mode.ppb) :=
  reply_pack (quantizePixels (buildPalette cnt s))

/-- Whole bytes in every row make a whole number of bytes. -/
theorem ppb_dvd_pixelCount {s : State} (packable : PackableSize s) : s.mode.ppb ∣ pixelCount s :=
  (Nat.dvd_of_mod_eq_zero packable.2).mul_right _

theorem olen_packIndices_mul_ppb {s : State} (packable : PackableSize s) :
    (packIndices s).olen.toNat * s.mode.ppb = pixelCount s := by
  rw [olen_packIndices, Nat.div_mul_cancel (ppb_dvd_pixelCount packable)]

/-- Unpacking the packed image gives the indices back (43_bit_packer.md R157). -/
theorem unpackSlot_outAt_packIndices {s : State} (packable : PackableSize s)
    (inRange : ∀ k, k < pixelCount s → (idxAt s k).toNat < s.mode.cpm) {k : Nat} (hk : k < pixelCount s) :
    unpackSlot s.mode (outAt (packIndices s) (k / s.mode.ppb)) (k % s.mode.ppb) = idxAt s k := by
  have hppb : 0 < s.mode.ppb := Nat.zero_lt_of_lt (two_le_ppb s.mode)
  have hj : k / s.mode.ppb < pixelCount s / s.mode.ppb := Nat.div_lt_div_of_lt_of_dvd (ppb_dvd_pixelCount packable) hk
  have hslot : (slotIndices s (k / s.mode.ppb))[k % s.mode.ppb]? = some (idxAt s k) := by
    simp [slotIndices, Nat.mod_lt k hppb, Nat.div_add_mod']
  obtain ⟨unpack_pack, _⟩ := packingIsInvertible s.mode
  rw [outAt_packIndices s _ hj]
  refine unpack_pack _ _ _ (by simp [slotIndices]) (fun v hv => ?_) hslot
  obtain ⟨i, hi, rfl⟩ := mem_slotIndices hj hv
  exact inRange i hi

theorem toNat_idxAt_convertWith {s : State} {cnt : Counts} (configured : Configured s)
    (hscan : scanCounts s.ref (pixels s) zeroCounts = .ok cnt) {k : Nat} (hk : k < pixelCount s) :
    (idxAt (convertWith cnt s) k).toNat = nearest (pixAt s k) (palRgb (buildPalette cnt s)) :=
  toNat_idxAt_quantizePixels (paletteUsable_buildPalette configured hscan) hk

/-- Every index is a position of the palette. -/
theorem toNat_idxAt_convertWith_lt_plen {s : State} {cnt : Counts} (configured : Configured s)
    (hscan : scanCounts s.ref (pixels s) zeroCounts = .ok cnt) {k : Nat} (hk : k < pixelCount s) :
    (idxAt (convertWith cnt s) k).toNat < (buildPalette cnt s).plen.toNat := by
  rw [toNat_idxAt_convertWith configured hscan hk]
  exact nearest_palRgb_lt_plen _ (paletteUsable_buildPalette configured hscan)

/-- The active palette as RGB is the ranked colours, cut to the mode's capacity (42_quantizer.md R137). -/
theorem palRgb_buildPalette {s : State} (wf : s.ref.WellFormed) (cnt : Counts) :
    palRgb (buildPalette cnt s) = ((rank cnt).take s.mode.cpm).map (rgbOf s.ref) := by
  refine List.ext_getElem (by simp [plen_buildPalette, Nat.min_comm]) fun i hi _ => ?_
  obtain ⟨_, hpal⟩ := exists_rank_of_lt_plen (palRgb_length _ ▸ hi)
  simp only [palRgb, List.getElem_map, List.getElem_range, List.getElem_take, hpal, buildPalette_ref, rgbOfHw_hwOf wf]

/-- No colour stands twice in the palette. -/
theorem nodup_palRgb_buildPalette {s : State} (wf : s.ref.WellFormed) (cnt : Counts) :
    (palRgb (buildPalette cnt s)).Nodup := by
  rw [palRgb_buildPalette wf]
  exact ((rank_nodup cnt).sublist (List.take_sublist _ _)).map wf.1

theorem nearest_of_nodup {p : ColourWord} {l : List ColourWord} (hnodup : l.Nodup) {i : Nat} (hi : l[i]? = some p) :
    nearest p l = i := by
  refine (isLowestNearest_of_first hi fun j hj hjp => hj.ne ?_).eq_nearest
  obtain ⟨hlt, _⟩ := List.getElem?_eq_some_iff.mp hjp
  exact (List.getElem?_inj hlt hnodup).mp (hjp.trans hi.symm)

/-- The palette entry of a colour's hardware byte is the colour. -/
theorem palRgb_getElem?_of_hwOf {s : State} (wf : s.ref.WellFormed) {i : Nat} {f : FwIndex} (hi : i < s.plen.toNat)
    (hf : hwOf s.ref f = palAt s i) : (palRgb s)[i]? = some (rgbOf s.ref f) := by
  simp [palRgb, hi, ← hf, rgbOfHw_hwOf wf]

/-- Settles O55: what BUILDPAL, QUANT and PACK establish, each from the phase before. -/
theorem convertEstablishesTheInvariants : Obligations.ConvertEstablishesTheInvariants := by
  intro s ready packable wf hall
  obtain ⟨cnt, hscan⟩ := exists_scanCounts_ok (allReference_iff.mp hall)
  have effect := Effect.convert packable hscan
  have usable := paletteUsable_buildPalette packable.1 hscan
  rw [← reply_convert cnt s]
  refine effect.completes (.inl ready) ⟨⟨?nonempty, usable.2⟩,
    fun _ => toNat_idxAt_convertWith_lt_plen packable.1 hscan, ?length,
    ⟨paletteIsRanked_buildPalette (count_of_scanCounts_ok wf hscan), fun _ _ => palAt_buildPalette_ne wf, ?hardware⟩,
    ?exactColour, ?unpack, fun _ => idxAt_quantizePixels_beyond (s := buildPalette cnt s), effect.frame _⟩
  case nonempty => exact Nat.pos_of_ne_zero fun hzero => usable.1 (BitVec.eq_of_toNat_eq hzero)
  case length => exact olen_packIndices_mul_ppb (s := quantizePixels (buildPalette cnt s)) packable
  case hardware =>
    intro i hi
    obtain ⟨_, hpal⟩ := exists_rank_of_lt_plen hi
    exact ⟨_, hpal.symm⟩
  case exactColour =>
    intro k i f hk hi hf hpix
    have hentry := palRgb_getElem?_of_hwOf (s := buildPalette cnt s) wf hi hf
    calc (idxAt (convertWith cnt s) k).toNat
        = nearest (pixAt s k) (palRgb (buildPalette cnt s)) := toNat_idxAt_convertWith packable.1 hscan hk
      _ = i := nearest_of_nodup (nodup_palRgb_buildPalette wf cnt) (hentry.trans (congrArg some hpix.symm))
  case unpack =>
    exact fun k => unpackSlot_outAt_packIndices (s := quantizePixels (buildPalette cnt s)) packable
      fun _ => idxAt_quantizePixels_lt_cpm usable

/-! ## An image of one colour (R170, corner case (a)) -/

theorem contrib_zero (m : ScreenMode) (slot : Nat) : contrib m slot 0 = 0 := by
  cases m <;> simp [contrib, contrib0, contrib1, contrib2, indexBit]

/-- Indices 0 add nothing to the accumulator. -/
theorem packFrom_of_forall_eq_zero (m : ScreenMode) {vs : List Nibble} (h : ∀ v ∈ vs, v = 0) (slot : Nat) (acc : Byte) :
    packFrom m slot acc vs = acc := by
  induction vs generalizing slot acc with
  | nil => rfl
  | cons v vs ih =>
    obtain ⟨rfl, hvs⟩ := List.forall_mem_cons.mp h
    rw [packFrom, ih hvs, contrib_zero]
    exact BitVec.or_zero

theorem outAt_packIndices_eq_zero {s : State} (hzero : ∀ k, k < pixelCount s → idxAt s k = 0) {j : Nat}
    (hj : j < pixelCount s / s.mode.ppb) : outAt (packIndices s) j = 0 := by
  rw [outAt_packIndices s j hj]
  refine packFrom_of_forall_eq_zero _ (fun v hv => ?_) 0 0
  obtain ⟨k, hk, rfl⟩ := mem_slotIndices hj hv
  exact hzero k hk

/-- When one colour alone is counted, the ranked list is that colour. -/
theorem rank_eq_singleton {cnt : Counts} {f : FwIndex} (h : ∀ g : FwIndex, 0 < cnt[g] ↔ g = f) : rank cnt = [f] := by
  refine List.perm_singleton.mp ((List.perm_ext_iff_of_nodup (rank_nodup cnt) (List.nodup_singleton f)).mpr fun g => ?_)
  rw [mem_rank, h, List.mem_singleton]

/-- In an image of one colour that colour alone occurs. -/
theorem occurrences_pos_iff_of_one_colour {s : State} {f : FwIndex} (configured : Configured s) (wf : s.ref.WellFormed)
    (hone : ∀ k, k < pixelCount s → pixAt s k = rgbOf s.ref f) (g : FwIndex) : 0 < occurrences s g ↔ g = f := by
  have hn : 0 < pixelCount s := pixelCount_pos configured
  rw [occurrences, List.count_pos_iff, pixels, List.mem_map]
  constructor
  · rintro ⟨k, hk, hg⟩
    exact wf.1 g f (hg.symm.trans (hone k (List.mem_range.mp hk)))
  · rintro rfl
    exact ⟨0, List.mem_range.mpr hn, hone 0 hn⟩

/-- Settles O59: the palette has one entry, so that every index is 0, and zeros pack to zeros. -/
theorem convertOfOneColour : Obligations.ConvertOfOneColour := by
  intro s f ready packable wf hone
  have hall : AllReference s := fun k hk => ⟨f, (hone k hk).symm⟩
  obtain ⟨cnt, hscan⟩ := exists_scanCounts_ok (allReference_iff.mp hall)
  have hrank : rank cnt = [f] := rank_eq_singleton fun g => by
    rw [count_of_scanCounts_ok wf hscan g]
    exact occurrences_pos_iff_of_one_colour packable.1 wf hone g
  have hplen : (buildPalette cnt s).plen.toNat = 1 := by
    rw [plen_buildPalette, hrank]
    exact min_eq_left (cpm_pos s.mode)
  have hidx {k : Nat} (hk : k < pixelCount s) : idxAt (convertWith cnt s) k = 0 :=
    BitVec.eq_of_toNat_eq (Nat.lt_one_iff.mp (hplen ▸ toNat_idxAt_convertWith_lt_plen packable.1 hscan hk))
  have holen : (convertWith cnt s).olen.toNat = pixelCount s / s.mode.ppb := olen_packIndices _
  rw [← reply_convert cnt s]
  refine (Effect.convert packable hscan).completes (.inl ready) ⟨BitVec.eq_of_toNat_eq hplen,
    palAt_buildPalette cnt s 0 f (hplen ▸ Nat.one_pos) (by rw [hrank]; rfl), fun _ => hidx, holen, fun j hj => ?_⟩
  exact outAt_packIndices_eq_zero (s := quantizePixels (buildPalette cnt s)) (fun _ => hidx) (holen ▸ hj)

end Sys2Proof.Machine

/-! # Proofs, family 60_exceptions: traps, FAULTED, and the trap return (60_exceptions.md)

A command that leaves READY has taken a trap for one of its causes (`eq_raise_of_fails`), so its end is the trap entry. From
FAULTED a word is rejected or is one of the three that respond, and of these only CLRERR writes ERR and EINFO. -/

namespace Sys2Proof.Machine

/-! ## Taking a trap and returning from it (R212, R214) -/

/-- Settles O18: the end of a command that leaves READY is `raise`, applied to the state that the command found. -/
theorem trapsArePrecise : Obligations.TrapsArePrecise := by
  intro i s t ready h ht
  obtain ⟨cause, listed, info, rfl⟩ := eq_raise_of_fails ready h ht
  exact ⟨cause, listed, info, raise_trapped cause info s⟩

/-- Settles O22: the trap entry and CLRERR write the same pieces of state. -/
theorem trapThenClrerrKeepsTheInputs : Obligations.TrapThenClrerrKeepsTheInputs := by
  intro i s t ready h ht
  obtain ⟨cause, _, info, rfl⟩ := eq_raise_of_fails ready h ht
  exact ⟨_, rfl, rfl, rfl, rfl, rfl,
    (onlyChanges_raise cause info s).trans (Effect.clrerr.frame 0) (fun _ hf => hf) (fun _ hf => hf)⟩

/-! ## Words in FAULTED (R213) -/

/-- From FAULTED only CLRERR writes ERR and EINFO: no command traps there, and no other lists them among its writes. -/
theorem exec_keeps_error {i : Instr} {s t : State} (faulted : s.err ≠ 0) (h : exec i s = .next t) (hi : i ≠ .clrerr) :
    t.err = s.err ∧ t.einfo = s.einfo := by
  have frame := (exec_frame h).resolve_right fun ⟨ready, _⟩ => faulted ready
  exact ⟨frame .err fun hm => hi (error_written (.inl hm)), frame .einfo fun hm => hi (error_written (.inr hm))⟩

theorem exec_eq_reject {i : Instr} {s : State} (faulted : s.err ≠ 0) (hi : acceptedInFaulted i = false) :
    exec i s = .next (reject s) := by
  obtain ⟨t, h⟩ := exec_next i s
  obtain ⟨_, _, _, _, _, accepted, _⟩ | ⟨ready, _⟩ | ⟨_, rfl, _⟩ := exec_cases i s t h
  · exact absurd (accepted.resolve_left faulted) (by simp [hi])
  · exact absurd ready faulted
  · exact h

theorem exec_responds {i : Instr} {s : State} (faulted : s.err ≠ 0) (hi : acceptedInFaulted i = true) :
    ∃ t data, exec i s = .next t ∧ Responds statusOk data s t := by
  obtain ⟨t, h⟩ := exec_next i s
  obtain ⟨data, u, rfl, hrsps, _⟩ | ⟨ready, _⟩ | ⟨_, _, rejected⟩ := exec_cases i s t h
  · exact ⟨_, data, h, by rw [Responds, respond_rsps, hrsps]⟩
  · exact absurd ready faulted
  · exact absurd hi (by simp [rejected])

/-- FAULTED rejects a word unless it decodes to one of the three commands, illegal words included (30_encoding.md R79). -/
theorem runWord_rejects {cmd : Word} {s : State} (faulted : s.err ≠ 0)
    (hcmd : ∀ i, decode cmd = .ok i → acceptedInFaulted i = false) : ∃ t, runWord cmd s = .next t ∧ Rejected s t := by
  cases hdecode : decode cmd with
  | ok i => exact ⟨_, (runWord_ok hdecode s).trans (exec_eq_reject faulted (hcmd i hdecode)), reject_rejected s⟩
  | error e => exact ⟨_, runWord_error hdecode s, illegalWord_rejected cmd faulted⟩

/-- Settles O19: the step runs the word, which FAULTED rejects or answers. -/
theorem faultedAcceptsThreeCommandsOnly : Obligations.FaultedAcceptsThreeCommandsOnly := by
  intro s cmd rest hinbox faulted
  rw [step_command hinbox]
  refine ⟨runWord_rejects (s := { s with inbox := rest }) faulted, fun i hdecode hi => ?_⟩
  obtain ⟨t, data, h, hresponds⟩ := exec_responds (s := { s with inbox := rest }) faulted hi
  exact ⟨t, data, (runWord_ok hdecode _).trans h, hresponds, exec_keeps_error (s := { s with inbox := rest }) faulted h⟩

theorem eq_of_decode_clrerr {cmd : Word} (h : decode cmd = .ok .clrerr) : cmd = 0x3F000000 :=
  (wordOfACommandIsItsEncoding cmd _ h).symm.trans (by decide)

/-- Settles O20, by the four kinds of step. -/
theorem trapsDoNotNest : Obligations.TrapsDoNotNest := by
  intro s t faulted h
  obtain ⟨_, rfl⟩ | ⟨rest, hinbox, rfl⟩ | ⟨cmd, rest, i, hinbox, hdecode, hexec⟩ | ⟨cmd, rest, _, _, _, rfl⟩ :=
    step_cases s t h
  · exact .inl ⟨rfl, rfl⟩
  · exact .inr ⟨rfl, rfl, rest, .inr hinbox⟩
  · by_cases hi : i = .clrerr
    · subst hi
      obtain rfl := Host.Outcome.next.inj hexec
      exact .inr ⟨rfl, rfl, rest, .inl (eq_of_decode_clrerr hdecode ▸ hinbox)⟩
    · exact .inl (exec_keeps_error (s := { s with inbox := rest }) faulted hexec hi)
  · have frame := (illegalWord_rejected cmd (s := { s with inbox := rest }) faulted).2
    exact .inl ⟨frame .err (by simp), frame .einfo (by simp)⟩

/-! ## Illegal words (R203) and the idle block (R222) -/

theorem exists_decode_error_of_no_match {cmd : Word} (h : ∀ row ∈ commandTable, cmd &&& row.mask ≠ row.pattern) :
    ∃ e, decode cmd = .error e := by
  cases hdecode : decode cmd with
  | error e => exact ⟨e, rfl⟩
  | ok i =>
    obtain ⟨row, hrow, hm, _⟩ := decode_eq_ok_iff.mp hdecode
    exact absurd hm (h row hrow)

/-- Settles O7: a word that matches no row does not decode, and the step runs the illegal word. -/
theorem illegalWordTrapsOrIsRejected : Obligations.IllegalWordTrapsOrIsRejected := by
  intro s cmd rest hinbox hcmd
  obtain ⟨e, herror⟩ := exists_decode_error_of_no_match hcmd
  exact ⟨_, (step_command hinbox).trans (runWord_error herror _),
    illegalWord_trapped cmd (s := { s with inbox := rest }), illegalWord_rejected cmd (s := { s with inbox := rest })⟩

/-- Settles O9: there is no event to take. -/
theorem idleBlockRetainsItsState : Obligations.IdleBlockRetainsItsState := fun _ => step_idle

/-! ## DimensionError (R202) -/

theorem not_configured_iff {s : State} : ¬ Configured s ↔ s.width = 0 ∨ s.height = 0 := by
  rw [Configured, not_and_or, not_not, not_not]

theorem legalDims_eq_false {w h : Byte} (hout : w.toNat < 1 ∨ 24 < w.toNat ∨ h.toNat < 1 ∨ 24 < h.toNat) :
    (legalDim w && legalDim h) = false := by
  rw [Bool.eq_false_iff, Ne, Bool.and_eq_true, legalDim_iff, legalDim_iff]
  omega

theorem traps_buildpal_unconfigured {s : State} (ready : s.err = 0) (h : ¬ Configured s) :
    Traps .buildpal s .dimensionError (dimWord s) :=
  ⟨_, next_whenReady ready (if_pos (unconfigured_eq_true h)), raise_trapped _ _ s⟩

theorem traps_convert_unpackable {s : State} (ready : s.err = 0) (h : ¬ PackableSize s) :
    Traps .convert s .dimensionError (dimWord s) :=
  ⟨_, exec_convert_of_unpackable ready h, raise_trapped _ _ s⟩

/-- Settles O23: each command's first check; an image without dimensions is not packable either. -/
theorem dimensionErrorConditions : Obligations.DimensionErrorConditions := by
  refine fun s ready => ⟨fun w h hout => traps_setdim ready (legalDims_eq_false hout), fun hdim => ?_, fun hwidth => ?_⟩
  · have unconfigured : ¬ Configured s := not_configured_iff.mpr hdim
    have unpackable : ¬ PackableSize s := fun packable => unconfigured packable.1
    simp only [List.forall_mem_cons, List.not_mem_nil, false_implies, implies_true, and_true]
    exact ⟨traps_buildpal_unconfigured ready unconfigured, traps_quant_unconfigured ready unconfigured,
      traps_pack_unpackable ready unpackable, traps_convert_unpackable ready unpackable⟩
  · have unpackable : ¬ PackableSize s := fun packable => hwidth packable.2
    simp only [List.forall_mem_cons, List.not_mem_nil, false_implies, implies_true, and_true]
    exact ⟨traps_pack_unpackable ready unpackable, traps_convert_unpackable ready unpackable⟩

end Sys2Proof.Machine
